-- ==== Sys2Proof/Word.lean ====
section
/-! DEFINITION. The word types of the machine: 00_scope.md R8. Every value is an unsigned number of its width (R9). -/

namespace Sys2Proof

/-- A general byte register, a memory byte, the PSW, ES or CS. -/
abbrev Byte := BitVec 8

/-- A register pair, the stack pointer or a logical address. -/
abbrev Word := BitVec 16

/-- A physical address or the program counter; arithmetic on it wraps modulo 2^20 (00_scope.md R16). -/
abbrev Addr := BitVec 20

end Sys2Proof
end

