-- ==== Sys2Proof/Machine/Bits.lean ====
section
/-! DEFINITION. Byte order, single bits and operand domains: the helpers the decoder, the operations and the well-formedness
check share. -/

namespace Sys2Proof

/-- `hi ++ lo` (00_scope.md R10), the word whose lower-addressed byte is `lo` (20_memory.md R50). -/
def wordOf (lo hi : Byte) : Word := hi ++ lo

/-- Bits 7:0 of a word. -/
def lowByte (w : Word) : Byte := w.extractLsb' 0 8

/-- Bits 15:8 of a word. -/
def highByte (w : Word) : Byte := w.extractLsb' 8 8

/-- `b` with its bit `k` made `v` and every other bit kept. -/
def setBit (b : Byte) (k : Nat) (v : Bool) : Byte :=
  if v then b ||| (1#8 <<< k) else b &&& ~~~(1#8 <<< k)

/-- The domain of a short-address operand, 0x00 to 0xDF: 20_memory.md R45, R46. -/
def saddrInRange (saddr : Byte) : Bool := decide (saddr.toNat ≤ 0xDF)

/-- The mapped SFR codes: 20_memory.md R47. -/
def sfrMapped (sfr : Byte) : Bool := sfr == 0xFA || sfr == 0xFC || sfr == 0xFD

end Sys2Proof
end

