-- ==== Sys2Proof/Config.lean ====
section
/-! DEFINITION. The parameters of the block: 00_scope.md R8.

The spec leaves three reset values open and asks that a claim hold for every value of each (R8; 92_eei_decisions.md D5 to
D7). They are the fields of `ResetParams`, the argument of `State.resetWith`; `resetParams` is the one choice that
`State.reset` makes (DESIGN CHOICE, log entries 1 to 3: unsafe). -/

namespace Sys2Proof

/-- The open reset parameters of 00_scope.md R8. -/
structure ResetParams where
  /-- REG_RESET: the eight byte registers, by index. -/
  regs : Vector Byte 8
  /-- PSW_RESET. -/
  psw : Byte
  /-- SP_RESET. -/
  sp : Word
  deriving DecidableEq, Repr

/-- The values `State.reset` takes for the open parameters (DESIGN CHOICE, log entries 1 to 3). -/
def resetParams : ResetParams where
  regs := #v[0, 0, 0, 0, 0, 0, 0, 0]
  psw := 0
  sp := 0

/-- The number of memory bytes, 2^20: 00_scope.md R8, 10_state.md R34. -/
def memSize : Nat := 2 ^ 20

end Sys2Proof
end

