-- ==== Sys2Proof/Syntax.lean ====
section
/-! DEFINITION. The instructions as syntax: one constructor per row of spec/opcode_table.json (30_encoding.md R78 to R80).

A register or pair is named by the opcode itself (30_encoding.md R77), so it is part of the constructor's name; an
argument is an operand field of 30_encoding.md R76. `at` stands for an indirect operand `[rp]`, `abs` for `!addr16`. -/

namespace Sys2Proof

/-- The 84 admitted instructions and the ES prefix. -/
inductive Instr where
  /-- NOP: 00 (44_control.md R111). -/
  | nop
  /-- XCH A,X: 08 (42_exchange.md R102). -/
  | xchA_X
  /-- ADD A,#byte: 0C + imm (43_arith.md R106). -/
  | addA_byte (imm : Byte)
  /-- ES: (prefix): 11 (30_encoding.md R68). -/
  | esPrefix
  /-- MOVW BC,AX: 12 (41_pair.md R99). -/
  | movwBC_AX
  /-- MOVW DE,AX: 14 (41_pair.md R99). -/
  | movwDE_AX
  /-- MOVW HL,AX: 16 (41_pair.md R99). -/
  | movwHL_AX
  /-- MOVW AX,BC: 13 (41_pair.md R98). -/
  | movwAX_BC
  /-- MOVW AX,DE: 15 (41_pair.md R98). -/
  | movwAX_DE
  /-- MOVW AX,HL: 17 (41_pair.md R98). -/
  | movwAX_HL
  /-- MOVW AX,#word: 30 + imm (41_pair.md R97). -/
  | movwAX_word (imm : Word)
  /-- MOVW BC,#word: 32 + imm (41_pair.md R97). -/
  | movwBC_word (imm : Word)
  /-- MOVW DE,#word: 34 + imm (41_pair.md R97). -/
  | movwDE_word (imm : Word)
  /-- MOVW HL,#word: 36 + imm (41_pair.md R97). -/
  | movwHL_word (imm : Word)
  /-- XCHW AX,BC: 33 (42_exchange.md R104). -/
  | xchwAX_BC
  /-- XCHW AX,DE: 35 (42_exchange.md R104). -/
  | xchwAX_DE
  /-- XCHW AX,HL: 37 (42_exchange.md R104). -/
  | xchwAX_HL
  /-- MOV X,#byte: 50 + imm (40_move.md R84). -/
  | movX_byte (imm : Byte)
  /-- MOV A,#byte: 51 + imm (40_move.md R84). -/
  | movA_byte (imm : Byte)
  /-- MOV C,#byte: 52 + imm (40_move.md R84). -/
  | movC_byte (imm : Byte)
  /-- MOV B,#byte: 53 + imm (40_move.md R84). -/
  | movB_byte (imm : Byte)
  /-- MOV E,#byte: 54 + imm (40_move.md R84). -/
  | movE_byte (imm : Byte)
  /-- MOV D,#byte: 55 + imm (40_move.md R84). -/
  | movD_byte (imm : Byte)
  /-- MOV L,#byte: 56 + imm (40_move.md R84). -/
  | movL_byte (imm : Byte)
  /-- MOV H,#byte: 57 + imm (40_move.md R84). -/
  | movH_byte (imm : Byte)
  /-- MOV A,X: 60 (40_move.md R85). -/
  | movA_X
  /-- MOV A,C: 62 (40_move.md R85). -/
  | movA_C
  /-- MOV A,B: 63 (40_move.md R85). -/
  | movA_B
  /-- MOV A,E: 64 (40_move.md R85). -/
  | movA_E
  /-- MOV A,D: 65 (40_move.md R85). -/
  | movA_D
  /-- MOV A,L: 66 (40_move.md R85). -/
  | movA_L
  /-- MOV A,H: 67 (40_move.md R85). -/
  | movA_H
  /-- MOV X,A: 70 (40_move.md R86). -/
  | movX_A
  /-- MOV C,A: 72 (40_move.md R86). -/
  | movC_A
  /-- MOV B,A: 73 (40_move.md R86). -/
  | movB_A
  /-- MOV E,A: 74 (40_move.md R86). -/
  | movE_A
  /-- MOV D,A: 75 (40_move.md R86). -/
  | movD_A
  /-- MOV L,A: 76 (40_move.md R86). -/
  | movL_A
  /-- MOV H,A: 77 (40_move.md R86). -/
  | movH_A
  /-- MOV A,[DE]: 89 (40_move.md R91). -/
  | movA_atDE
  /-- MOV A,[DE+byte]: 8A + disp (40_move.md R93). -/
  | movA_atDEdisp (disp : Byte)
  /-- MOV A,[HL]: 8B (40_move.md R91). -/
  | movA_atHL
  /-- MOV A,[HL+byte]: 8C + disp (40_move.md R93). -/
  | movA_atHLdisp (disp : Byte)
  /-- MOV A,saddr: 8D + saddr (40_move.md R87). -/
  | movA_saddr (saddr : Byte)
  /-- MOV A,sfr: 8E + sfr (40_move.md R95). -/
  | movA_sfr (sfr : Byte)
  /-- MOV A,!addr16: 8F + addr (40_move.md R89). -/
  | movA_abs (addr : Word)
  /-- MOV [DE],A: 99 (40_move.md R92). -/
  | movAtDE_A
  /-- MOV [DE+byte],A: 9A + disp (40_move.md R94). -/
  | movAtDEdisp_A (disp : Byte)
  /-- MOV [HL],A: 9B (40_move.md R92). -/
  | movAtHL_A
  /-- MOV [HL+byte],A: 9C + disp (40_move.md R94). -/
  | movAtHLdisp_A (disp : Byte)
  /-- MOV saddr,A: 9D + saddr (40_move.md R88). -/
  | movSaddr_A (saddr : Byte)
  /-- MOV sfr,A: 9E + sfr (40_move.md R96). -/
  | movSfr_A (sfr : Byte)
  /-- MOV !addr16,A: 9F + addr (40_move.md R90). -/
  | movAbs_A (addr : Word)
  /-- MOV X,saddr: D8 + saddr (40_move.md R87). -/
  | movX_saddr (saddr : Byte)
  /-- MOV B,saddr: E8 + saddr (40_move.md R87). -/
  | movB_saddr (saddr : Byte)
  /-- MOV C,saddr: F8 + saddr (40_move.md R87). -/
  | movC_saddr (saddr : Byte)
  /-- MOV X,!addr16: D9 + addr (40_move.md R89). -/
  | movX_abs (addr : Word)
  /-- MOV B,!addr16: E9 + addr (40_move.md R89). -/
  | movB_abs (addr : Word)
  /-- MOV C,!addr16: F9 + addr (40_move.md R89). -/
  | movC_abs (addr : Word)
  /-- ONEW AX: E6 (41_pair.md R101). -/
  | onewAX
  /-- ONEW BC: E7 (41_pair.md R101). -/
  | onewBC
  /-- CLRW AX: F6 (41_pair.md R100). -/
  | clrwAX
  /-- CLRW BC: F7 (41_pair.md R100). -/
  | clrwBC
  /-- ADD X,A: 61 00 (43_arith.md R108). -/
  | addX_A
  /-- ADD A,A: 61 01 (43_arith.md R108). -/
  | addA_A
  /-- ADD C,A: 61 02 (43_arith.md R108). -/
  | addC_A
  /-- ADD B,A: 61 03 (43_arith.md R108). -/
  | addB_A
  /-- ADD E,A: 61 04 (43_arith.md R108). -/
  | addE_A
  /-- ADD D,A: 61 05 (43_arith.md R108). -/
  | addD_A
  /-- ADD L,A: 61 06 (43_arith.md R108). -/
  | addL_A
  /-- ADD H,A: 61 07 (43_arith.md R108). -/
  | addH_A
  /-- ADD A,X: 61 08 (43_arith.md R107). -/
  | addA_X
  /-- ADD A,C: 61 0A (43_arith.md R107). -/
  | addA_C
  /-- ADD A,B: 61 0B (43_arith.md R107). -/
  | addA_B
  /-- ADD A,E: 61 0C (43_arith.md R107). -/
  | addA_E
  /-- ADD A,D: 61 0D (43_arith.md R107). -/
  | addA_D
  /-- ADD A,L: 61 0E (43_arith.md R107). -/
  | addA_L
  /-- ADD A,H: 61 0F (43_arith.md R107). -/
  | addA_H
  /-- XCH A,C: 61 8A (42_exchange.md R103). -/
  | xchA_C
  /-- XCH A,B: 61 8B (42_exchange.md R103). -/
  | xchA_B
  /-- XCH A,E: 61 8C (42_exchange.md R103). -/
  | xchA_E
  /-- XCH A,D: 61 8D (42_exchange.md R103). -/
  | xchA_D
  /-- XCH A,L: 61 8E (42_exchange.md R103). -/
  | xchA_L
  /-- XCH A,H: 61 8F (42_exchange.md R103). -/
  | xchA_H
  /-- BR AX: 61 CB (44_control.md R110). -/
  | brAX
  deriving DecidableEq, Repr

end Sys2Proof
end

