-- ==== Sys2Proof/Machine/State.lean ====
section
/-! DEFINITION. The Machine State of 10_state.md R19, the results of a cycle, and the state after reset (R36). -/

namespace Sys2Proof.Machine

/-- The byte registers, in the order of their codes: 10_state.md R21. -/
inductive Reg where
  | X | A | C | B | E | D | L | H
  deriving DecidableEq, Repr

/-- The register pairs, in the order of their indices: 10_state.md R22. -/
inductive Pair where
  | AX | BC | DE | HL
  deriving DecidableEq, Repr

/-- The memory array of 10_state.md R34 as plain data: the cells that differ from the reset value 0x00, at strictly rising
addresses below 2^20 (`Memory.wf`; log entry 4). -/
abbrev Memory := List Host.Cell

/-- The Machine State: exactly the fields of 10_state.md R19. -/
structure State where
  /-- The address of the next instruction byte (R24). -/
  pc : Addr
  /-- The stack pointer, which no instruction touches (R33). -/
  sp : Word
  /-- The flags register, in the layout of R27. -/
  psw : Byte
  /-- The extra segment register (R31). -/
  es : Byte
  /-- The code segment register (R32). -/
  cs : Byte
  /-- The register file R[0..7], one buffer seen as bytes and as pairs (R20, R22). -/
  regs : Vector Byte 8
  /-- The memory array (R34). -/
  mem : Memory
  /-- Whether the instruction now executing is under the ES prefix (R35). -/
  prefixActive : Bool
  deriving DecidableEq, Repr

/-- The error kinds of 60_exceptions.md R115. A fault carries no state: the Machine State is then the one the cycle started
from (R123), and an error is terminal (R124); stopping is safe (log entry 7). -/
inductive Fault where
  /-- Raised by the decoder for a first byte that is not admitted, and by a second 0x11 after a prefix (R116; safe, the
  spec's own error). -/
  | unknownOpcode (opcode : Byte) (pc : Addr) (prefixed : Bool)
  /-- Raised by the decoder for 0x61 followed by a byte that is not admitted (R117; safe, the spec's own error). -/
  | unknownSecondaryOpcode (opcode second : Byte) (pc : Addr) (prefixed : Bool)
  /-- Raised by MOV A,sfr and MOV sfr,A for a code other than 0xFA, 0xFC and 0xFD (R118; safe, log entry 19). -/
  | unmappedSfr (code : Byte) (pc : Addr)
  /-- Raised by the short-address moves for an operand above 0xDF (R119; safe, log entry 20). -/
  | saddrOutOfRange (saddr : Byte) (pc : Addr)
  /-- Raised by nothing: every address is 20 bits wide and every 20-bit address exists (R120; safe, log entry 22). -/
  | outOfBounds (addr : Nat)
  deriving DecidableEq, Repr

/-- What the model gives no meaning to. -/
inductive Refusal where
  /-- An instruction without a meaning yet, by its mnemonic; no arm of exec answers it (safe). -/
  | notModelled (mnemonic : String)
  /-- Raised by the host's pre-load of `length` bytes at `offset` where they would pass 0xFFFFF (60_exceptions.md R132;
  safe). -/
  | preloadPastEnd (offset length : Nat)
  deriving DecidableEq, Repr

/-- The result of a meaning: 60_exceptions.md R114. -/
abbrev Result := Host.Outcome State Fault Refusal

/-- The state after the reset operation, for any value of the open parameters: 10_state.md R36. -/
def State.resetWith (params : ResetParams) : State where
  pc := 0x00000
  sp := params.sp
  psw := params.psw
  es := 0x0F
  cs := 0x00
  regs := params.regs
  mem := []
  prefixActive := false

/-- The state after reset, at the parameter values of `Sys2Proof.resetParams` (DESIGN CHOICE, log entries 1 to 3). -/
def State.reset : State := State.resetWith resetParams

end Sys2Proof.Machine
end

