-- ==== Sys2Proof/Machine/Ops.lean ====
section
/-! DEFINITION. The named operations over memory, registers, the program counter and the prefix flag, and the one operation
by which a cycle raises an error.

The block has no trap entry and no return from one (60_exceptions.md R126, R127): an error is reported to the host and the
state is the cycle's first one (R123). `raise` is that report. -/

namespace Sys2Proof.Machine

/-! ### Memory -/

/-- What an address that is not listed reads as: the reset contents of 10_state.md R34. -/
def Memory.unlisted : Byte := 0x00

/-- The canonical form: strictly rising addresses below 2^20, and no cell that holds what an unlisted address reads as. -/
abbrev Memory.wf (m : Memory) : Prop :=
  m.Pairwise (fun c d => c.1 < d.1) ∧ ∀ c ∈ m, c.1 < memSize ∧ c.2 ≠ Memory.unlisted

/-- The byte at an address. -/
def Memory.read : Memory → Nat → Byte
  | [], _ => Memory.unlisted
  | (key, byte) :: rest, a => if key = a then byte else Memory.read rest a

/-- The memory without any cell at `a`. -/
def Memory.erase (m : Memory) (a : Nat) : Memory :=
  m.filter (fun cell => cell.1 != a)

/-- A cell put before the first one at a higher address. -/
def Memory.insert : Memory → Nat → Byte → Memory
  | [], a, v => [(a, v)]
  | (key, byte) :: rest, a, v =>
    if a < key then (a, v) :: (key, byte) :: rest else (key, byte) :: Memory.insert rest a v

/-- `mem[a] <- v`, keeping the canonical form. -/
def Memory.write (m : Memory) (a : Nat) (v : Byte) : Memory :=
  if v = Memory.unlisted then m.erase a else (m.erase a).insert a v

/-- `MemRead(a, 1)`: 20_memory.md R40. The address type is the 20-bit mask of R39. -/
def State.memRead (s : State) (a : Addr) : Byte := s.mem.read a.toNat

/-- `MemWrite(a, 1, v)`: 20_memory.md R40. -/
def State.memWrite (s : State) (a : Addr) (v : Byte) : State :=
  { s with mem := s.mem.write a.toNat v }

/-- Bytes written at successive addresses, wrapping at 2^20. -/
def State.placeBytes (s : State) (a : Addr) : List Byte → State
  | [] => s
  | b :: rest => (s.memWrite a b).placeBytes (a + 1) rest

/-! ### General registers -/

/-- The register code, which is the index: 10_state.md R21. -/
def Reg.code : Reg → Fin 8
  | .X => 0
  | .A => 1
  | .C => 2
  | .B => 3
  | .E => 4
  | .D => 5
  | .L => 6
  | .H => 7

/-- The pair index: 10_state.md R22. -/
def Pair.index : Pair → Fin 4
  | .AX => 0
  | .BC => 1
  | .DE => 2
  | .HL => 3

/-- The low byte of a pair, at the even index: 10_state.md R22. -/
def Pair.lo : Pair → Reg
  | .AX => .X
  | .BC => .C
  | .DE => .E
  | .HL => .L

/-- The high byte of a pair: 10_state.md R22. -/
def Pair.hi : Pair → Reg
  | .AX => .A
  | .BC => .B
  | .DE => .D
  | .HL => .H

/-- `R[i]`: 00_scope.md R11. -/
def State.getReg (s : State) (r : Reg) : Byte := s.regs.get r.code

/-- `R[i] <- v`: 00_scope.md R11. -/
def State.setReg (s : State) (r : Reg) (v : Byte) : State :=
  { s with regs := s.regs.set r.code.val v r.code.isLt }

/-- `RP[j]`: 10_state.md R22. -/
def State.getPair (s : State) (p : Pair) : Word := wordOf (s.getReg p.lo) (s.getReg p.hi)

/-- `RP[j] <- v`: 10_state.md R22. -/
def State.setPair (s : State) (p : Pair) (v : Word) : State :=
  (s.setReg p.lo (lowByte v)).setReg p.hi (highByte v)

/-! ### The PSW and the segment registers -/

/-- The PSW replaced whole. -/
def State.setPsw (s : State) (v : Byte) : State := { s with psw := v }

/-- ES replaced whole. -/
def State.setEs (s : State) (v : Byte) : State := { s with es := v }

/-- CS replaced whole. -/
def State.setCs (s : State) (v : Byte) : State := { s with cs := v }

/-! ### The fetch unit -/

/-- `Peek(k)`: 30_encoding.md R63. -/
def State.peek (s : State) (k : Nat) : Byte := s.memRead (s.pc + BitVec.ofNat 20 k)

/-- `FetchByte()`: 30_encoding.md R64. -/
def State.fetchByte (s : State) : Byte × State := (s.memRead s.pc, { s with pc := s.pc + 1 })

/-- `FetchWord()`: 30_encoding.md R65. -/
def State.fetchWord (s : State) : Word × State :=
  (wordOf s.fetchByte.1 s.fetchByte.2.fetchByte.1, s.fetchByte.2.fetchByte.2)

/-- `n` bytes fetched one after the other. -/
def State.fetchBytes : Nat → State → List Byte × State
  | 0, s => ([], s)
  | n + 1, s =>
    (s.fetchByte.1 :: (State.fetchBytes n s.fetchByte.2).1, (State.fetchBytes n s.fetchByte.2).2)

/-- The state once `n` bytes of an instruction are consumed; `FetchByte` is the only means (30_encoding.md R66). The values
fetched are those the decoder peeked (DEDUCED, log entry 6: safe). -/
def State.consume (s : State) (n : Nat) : State := (State.fetchBytes n s).2

/-- `pc <- target`: 00_scope.md R16. -/
def State.jump (s : State) (target : Addr) : State := { s with pc := target }

/-! ### The decoder's state -/

/-- The transition to `Normal`, at the end of every cycle (30_encoding.md R69) and, since "each cycle starts in Normal"
(R67), at its start (log entry 9). -/
def State.toNormal (s : State) : State := { s with prefixActive := false }

/-- The transition to `ExtendedPrefix`: 30_encoding.md R67. -/
def State.toExtended (s : State) : State := { s with prefixActive := true }

/-! ### Errors -/

/-- The pc of the cycle's first byte, for a state at the first opcode byte: the prefix byte, if there is one, lies just
before it (60_exceptions.md R115; DEDUCED, log entry 8: safe). -/
def State.cycleStart (s : State) : Addr := if s.prefixActive then s.pc - 1 else s.pc

/-- `raise Error(kind, info)` with the cycle-start pc: 00_scope.md R15, 60_exceptions.md R114, R115. -/
def raise (kind : Addr → Fault) (s : State) : Result := .fault (kind s.cycleStart)

end Sys2Proof.Machine
end

