-- ==== Sys2Proof/Machine/Flags.lean ====
section
/-! DEFINITION. The PSW's fields (10_state.md R27) and the one flag algorithm of the block (43_arith.md R105). -/

namespace Sys2Proof.Machine

/-- Bit 0, carry: 10_state.md R27. The layout is the spec's decision D10 (UNVERIFIED, log entry 14). -/
def cyBit : Nat := 0

/-- Bit 1, in-service priority 0: 10_state.md R27. -/
def isp0Bit : Nat := 1

/-- Bit 2, in-service priority 1: 10_state.md R27. -/
def isp1Bit : Nat := 2

/-- Bit 4, auxiliary carry: 10_state.md R27. -/
def acBit : Nat := 4

/-- Bit 6, zero: 10_state.md R27. -/
def zBit : Nat := 6

/-- Bit 7, interrupt enable: 10_state.md R27. -/
def ieBit : Nat := 7

/-- PSW.CY. -/
def State.cy (s : State) : Bool := s.psw.getLsbD cyBit

/-- PSW.AC. -/
def State.ac (s : State) : Bool := s.psw.getLsbD acBit

/-- PSW.Z. -/
def State.z (s : State) : Bool := s.psw.getLsbD zBit

/-- PSW.IE, storage only (10_state.md R29). -/
def State.ie (s : State) : Bool := s.psw.getLsbD ieBit

/-- PSW.ISP0, storage only (10_state.md R29). -/
def State.isp0 (s : State) : Bool := s.psw.getLsbD isp0Bit

/-- PSW.ISP1, storage only (10_state.md R29). -/
def State.isp1 (s : State) : Bool := s.psw.getLsbD isp1Bit

/-- The 9-bit intermediate sum of 43_arith.md R105, exact. -/
def sum9 (a b : Byte) : Nat := a.toNat + b.toNat

/-- The truncated result of 43_arith.md R105. -/
def addResult (a b : Byte) : Byte := BitVec.ofNat 8 (sum9 a b)

/-- The PSW after an addition: CY, AC and Z written, every other bit kept (43_arith.md R105). -/
def addPsw (psw a b : Byte) : Byte :=
  setBit
    (setBit (setBit psw cyBit (decide (sum9 a b > 0xFF))) acBit
      (decide ((a &&& 0xF).toNat + (b &&& 0xF).toNat > 0xF)))
    zBit (decide (addResult a b = 0))

/-- `AddFlags(a, b)`: the result, and the state with its flags written (43_arith.md R105). -/
def addFlags (a b : Byte) (s : State) : Byte × State := (addResult a b, s.setPsw (addPsw s.psw a b))

end Sys2Proof.Machine
end

