-- ==== Sys2Proof/Machine/Arith.lean ====
section
/-! DEFINITION. The ADD family: 43_arith.md R106 to R108, each over the one flag algorithm of R105. -/

namespace Sys2Proof.Machine

/-- `R[dst] <- AddFlags(R[dst], b)` by an instruction of `length` bytes: 43_arith.md R105. -/
def addInto (dst : Reg) (b : Byte) (length : Nat) (s : State) : Result :=
  .next ((addFlags (s.getReg dst) b (s.consume length)).2.setReg dst (addFlags (s.getReg dst) b (s.consume length)).1)

/-- R106: an immediate added to A. -/
def addImmediate (imm : Byte) (s : State) : Result := addInto .A imm 2 s

/-- R107, R108: one byte register added to another. -/
def addBytes (dst src : Reg) (s : State) : Result := addInto dst (s.getReg src) 2 s

/-- ADD A,#byte: 43_arith.md R106. -/
def execAddA_byte (imm : Byte) (s : State) : Result := addImmediate imm s

/-- ADD X,A: 43_arith.md R108. -/
def execAddX_A (s : State) : Result := addBytes .X .A s

/-- ADD A,A: 43_arith.md R108. -/
def execAddA_A (s : State) : Result := addBytes .A .A s

/-- ADD C,A: 43_arith.md R108. -/
def execAddC_A (s : State) : Result := addBytes .C .A s

/-- ADD B,A: 43_arith.md R108. -/
def execAddB_A (s : State) : Result := addBytes .B .A s

/-- ADD E,A: 43_arith.md R108. -/
def execAddE_A (s : State) : Result := addBytes .E .A s

/-- ADD D,A: 43_arith.md R108. -/
def execAddD_A (s : State) : Result := addBytes .D .A s

/-- ADD L,A: 43_arith.md R108. -/
def execAddL_A (s : State) : Result := addBytes .L .A s

/-- ADD H,A: 43_arith.md R108. -/
def execAddH_A (s : State) : Result := addBytes .H .A s

/-- ADD A,X: 43_arith.md R107. -/
def execAddA_X (s : State) : Result := addBytes .A .X s

/-- ADD A,C: 43_arith.md R107. -/
def execAddA_C (s : State) : Result := addBytes .A .C s

/-- ADD A,B: 43_arith.md R107. -/
def execAddA_B (s : State) : Result := addBytes .A .B s

/-- ADD A,E: 43_arith.md R107. -/
def execAddA_E (s : State) : Result := addBytes .A .E s

/-- ADD A,D: 43_arith.md R107. -/
def execAddA_D (s : State) : Result := addBytes .A .D s

/-- ADD A,L: 43_arith.md R107. -/
def execAddA_L (s : State) : Result := addBytes .A .L s

/-- ADD A,H: 43_arith.md R107. -/
def execAddA_H (s : State) : Result := addBytes .A .H s

end Sys2Proof.Machine
end

