-- ==== Sys2Proof/Decode.lean ====
section
/-! DEFINITION. The decoder of 30_encoding.md (R60 to R81), total on any bytes, and after it the encoder.

The opcode maps below list the bytes of 30_encoding.md R79 and R80 row by row; the ES prefix byte stands in the first map
because the decoder's Normal state admits it there (R67). Most byte values are the spec's general knowledge, which the
spec adopts (UNVERIFIED, log entry 12). -/

namespace Sys2Proof

/-- What the decoder refuses, by name: 30_encoding.md R72 and R73. -/
inductive Undecoded where
  /-- The first opcode byte is not admitted (R72), or it is a second ES prefix (R74). -/
  | unknownOpcode (opcode : Byte)
  /-- The byte after 0x61 is not admitted (R73). -/
  | unknownSecondaryOpcode (second : Byte)
  deriving DecidableEq, Repr

/-- What decoding a list of bytes refuses. -/
inductive DecodeError where
  /-- The opcode is refused. -/
  | undecoded (why : Undecoded)
  /-- The list ends inside the instruction; memory never does, since it wraps (R63). -/
  | truncated
  deriving DecidableEq, Repr

/-- What follows a first-map opcode byte: nothing, one operand byte, or a little-endian word (30_encoding.md R61, R76). -/
inductive Operands where
  /-- Formats F1 and FP. -/
  | bare (i : Instr)
  /-- Formats F2i, F2s, F2f and F2d. -/
  | byte (build : Byte → Instr)
  /-- Formats F3a and F3w. -/
  | word (build : Word → Instr)

/-- The instruction's length without the prefix: 30_encoding.md R61. -/
def Operands.length : Operands → Nat
  | .bare _ => 1
  | .byte _ => 2
  | .word _ => 3

/-- The instruction whose operand bytes are `b1` and `b2`, low byte first: 30_encoding.md R65, R76. -/
def Operands.assemble (b1 b2 : Byte) : Operands → Instr
  | .bare i => i
  | .byte build => build b1
  | .word build => build (wordOf b1 b2)

/-- The ES prefix byte (30_encoding.md R68). -/
def prefixOpcode : Byte := 0x11

/-- The second-map escape byte (30_encoding.md R62). -/
def escapeOpcode : Byte := 0x61

/-- 30_encoding.md R79, rows 0x to 2x. -/
def firstMapLow : List (Byte × Operands) :=
  [(0x00, .bare .nop),
   (0x08, .bare .xchA_X),
   (0x0C, .byte .addA_byte),
   (0x11, .bare .esPrefix),
   (0x12, .bare .movwBC_AX),
   (0x13, .bare .movwAX_BC),
   (0x14, .bare .movwDE_AX),
   (0x15, .bare .movwAX_DE),
   (0x16, .bare .movwHL_AX),
   (0x17, .bare .movwAX_HL)]

/-- 30_encoding.md R79, rows 3x to 5x. -/
def firstMapImmediate : List (Byte × Operands) :=
  [(0x30, .word .movwAX_word),
   (0x32, .word .movwBC_word),
   (0x33, .bare .xchwAX_BC),
   (0x34, .word .movwDE_word),
   (0x35, .bare .xchwAX_DE),
   (0x36, .word .movwHL_word),
   (0x37, .bare .xchwAX_HL),
   (0x50, .byte .movX_byte),
   (0x51, .byte .movA_byte),
   (0x52, .byte .movC_byte),
   (0x53, .byte .movB_byte),
   (0x54, .byte .movE_byte),
   (0x55, .byte .movD_byte),
   (0x56, .byte .movL_byte),
   (0x57, .byte .movH_byte)]

/-- 30_encoding.md R79, rows 6x to 7x. -/
def firstMapRegister : List (Byte × Operands) :=
  [(0x60, .bare .movA_X),
   (0x62, .bare .movA_C),
   (0x63, .bare .movA_B),
   (0x64, .bare .movA_E),
   (0x65, .bare .movA_D),
   (0x66, .bare .movA_L),
   (0x67, .bare .movA_H),
   (0x70, .bare .movX_A),
   (0x72, .bare .movC_A),
   (0x73, .bare .movB_A),
   (0x74, .bare .movE_A),
   (0x75, .bare .movD_A),
   (0x76, .bare .movL_A),
   (0x77, .bare .movH_A)]

/-- 30_encoding.md R79, rows 8x to Cx. -/
def firstMapMemory : List (Byte × Operands) :=
  [(0x89, .bare .movA_atDE),
   (0x8A, .byte .movA_atDEdisp),
   (0x8B, .bare .movA_atHL),
   (0x8C, .byte .movA_atHLdisp),
   (0x8D, .byte .movA_saddr),
   (0x8E, .byte .movA_sfr),
   (0x8F, .word .movA_abs),
   (0x99, .bare .movAtDE_A),
   (0x9A, .byte .movAtDEdisp_A),
   (0x9B, .bare .movAtHL_A),
   (0x9C, .byte .movAtHLdisp_A),
   (0x9D, .byte .movSaddr_A),
   (0x9E, .byte .movSfr_A),
   (0x9F, .word .movAbs_A)]

/-- 30_encoding.md R79, rows Dx to Fx. -/
def firstMapHigh : List (Byte × Operands) :=
  [(0xD8, .byte .movX_saddr),
   (0xD9, .word .movX_abs),
   (0xE6, .bare .onewAX),
   (0xE7, .bare .onewBC),
   (0xE8, .byte .movB_saddr),
   (0xE9, .word .movB_abs),
   (0xF6, .bare .clrwAX),
   (0xF7, .bare .clrwBC),
   (0xF8, .byte .movC_saddr),
   (0xF9, .word .movC_abs)]

/-- The first map, 30_encoding.md R79: the 62 instructions and the prefix. -/
def firstMap : List (Byte × Operands) :=
  firstMapLow ++ firstMapImmediate ++ firstMapRegister ++ firstMapMemory ++ firstMapHigh

/-- 30_encoding.md R80, bytes 00 to 0F after 0x61. -/
def secondMapAdd : List (Byte × Instr) :=
  [(0x00, .addX_A),
   (0x01, .addA_A),
   (0x02, .addC_A),
   (0x03, .addB_A),
   (0x04, .addE_A),
   (0x05, .addD_A),
   (0x06, .addL_A),
   (0x07, .addH_A),
   (0x08, .addA_X),
   (0x0A, .addA_C),
   (0x0B, .addA_B),
   (0x0C, .addA_E),
   (0x0D, .addA_D),
   (0x0E, .addA_L),
   (0x0F, .addA_H)]

/-- 30_encoding.md R80, bytes 8A to CB after 0x61. -/
def secondMapHigh : List (Byte × Instr) :=
  [(0x8A, .xchA_C),
   (0x8B, .xchA_B),
   (0x8C, .xchA_E),
   (0x8D, .xchA_D),
   (0x8E, .xchA_L),
   (0x8F, .xchA_H),
   (0xCB, .brAX)]

/-- The second map, 30_encoding.md R80. -/
def secondMap : List (Byte × Instr) :=
  secondMapAdd ++ secondMapHigh

/-- The instruction that starts at `b0`, and its length: the decode part of 30_encoding.md R71. `prefixed` is the
decoder's state ExtendedPrefix (R67), in which a further 0x11 is refused (R74). -/
def decodeWindow (prefixed : Bool) (b0 b1 b2 : Byte) : Except Undecoded (Instr × Nat) :=
  if prefixed = true ∧ b0 = prefixOpcode then .error (.unknownOpcode b0)
  else if b0 = escapeOpcode then
    match secondMap.lookup b1 with
    | some i => .ok (i, 2)
    | none => .error (.unknownSecondaryOpcode b1)
  else
    match firstMap.lookup b0 with
    | some row => .ok (row.assemble b1 b2, row.length)
    | none => .error (.unknownOpcode b0)

/-- The first instruction of a list of bytes, and the bytes after it. -/
def decode (prefixed : Bool) (bytes : List Byte) : Except DecodeError (Instr × List Byte) :=
  match decodeWindow prefixed (bytes.getD 0 0) (bytes.getD 1 0) (bytes.getD 2 0) with
  | .error why => .error (.undecoded why)
  | .ok (i, n) => if n ≤ bytes.length then .ok (i, bytes.drop n) else .error .truncated

/-- The four bytes, the first at the lowest address, of the instruction the opcode table numbers `w`. A two-byte opcode
of the table has its first byte, 0x61, most significant (INDEX.md); any other word is read with its first byte least
significant. The bytes above `nbits` are zero (log entry 11). -/
def tableBytes (nbits w : Nat) : List Byte :=
  let v := w % 2 ^ nbits
  let byteAt (k : Nat) : Byte := BitVec.ofNat 8 (v / 256 ^ k)
  if nbits = 16 ∧ byteAt 1 = escapeOpcode then [byteAt 1, byteAt 0, 0, 0]
  else [byteAt 0, byteAt 1, byteAt 2, byteAt 3]

/-- What the decoder, in its Normal state, reads from the instruction the opcode table numbers `w`. -/
def decodeTableWord (nbits w : Nat) : Option Instr :=
  match decode false (tableBytes nbits w) with
  | .ok (i, _) => some i
  | .error _ => none

/-- The bytes of an instruction, the first at the lowest address: 30_encoding.md R60, R61, R76, R77, R79 and R80. -/
def encode : Instr → List Byte
  | .nop => [0x00]
  | .xchA_X => [0x08]
  | .addA_byte imm => [0x0C, imm]
  | .esPrefix => [0x11]
  | .movwBC_AX => [0x12]
  | .movwDE_AX => [0x14]
  | .movwHL_AX => [0x16]
  | .movwAX_BC => [0x13]
  | .movwAX_DE => [0x15]
  | .movwAX_HL => [0x17]
  | .movwAX_word imm => [0x30, lowByte imm, highByte imm]
  | .movwBC_word imm => [0x32, lowByte imm, highByte imm]
  | .movwDE_word imm => [0x34, lowByte imm, highByte imm]
  | .movwHL_word imm => [0x36, lowByte imm, highByte imm]
  | .xchwAX_BC => [0x33]
  | .xchwAX_DE => [0x35]
  | .xchwAX_HL => [0x37]
  | .movX_byte imm => [0x50, imm]
  | .movA_byte imm => [0x51, imm]
  | .movC_byte imm => [0x52, imm]
  | .movB_byte imm => [0x53, imm]
  | .movE_byte imm => [0x54, imm]
  | .movD_byte imm => [0x55, imm]
  | .movL_byte imm => [0x56, imm]
  | .movH_byte imm => [0x57, imm]
  | .movA_X => [0x60]
  | .movA_C => [0x62]
  | .movA_B => [0x63]
  | .movA_E => [0x64]
  | .movA_D => [0x65]
  | .movA_L => [0x66]
  | .movA_H => [0x67]
  | .movX_A => [0x70]
  | .movC_A => [0x72]
  | .movB_A => [0x73]
  | .movE_A => [0x74]
  | .movD_A => [0x75]
  | .movL_A => [0x76]
  | .movH_A => [0x77]
  | .movA_atDE => [0x89]
  | .movA_atDEdisp disp => [0x8A, disp]
  | .movA_atHL => [0x8B]
  | .movA_atHLdisp disp => [0x8C, disp]
  | .movA_saddr saddr => [0x8D, saddr]
  | .movA_sfr sfr => [0x8E, sfr]
  | .movA_abs addr => [0x8F, lowByte addr, highByte addr]
  | .movAtDE_A => [0x99]
  | .movAtDEdisp_A disp => [0x9A, disp]
  | .movAtHL_A => [0x9B]
  | .movAtHLdisp_A disp => [0x9C, disp]
  | .movSaddr_A saddr => [0x9D, saddr]
  | .movSfr_A sfr => [0x9E, sfr]
  | .movAbs_A addr => [0x9F, lowByte addr, highByte addr]
  | .movX_saddr saddr => [0xD8, saddr]
  | .movB_saddr saddr => [0xE8, saddr]
  | .movC_saddr saddr => [0xF8, saddr]
  | .movX_abs addr => [0xD9, lowByte addr, highByte addr]
  | .movB_abs addr => [0xE9, lowByte addr, highByte addr]
  | .movC_abs addr => [0xF9, lowByte addr, highByte addr]
  | .onewAX => [0xE6]
  | .onewBC => [0xE7]
  | .clrwAX => [0xF6]
  | .clrwBC => [0xF7]
  | .addX_A => [0x61, 0x00]
  | .addA_A => [0x61, 0x01]
  | .addC_A => [0x61, 0x02]
  | .addB_A => [0x61, 0x03]
  | .addE_A => [0x61, 0x04]
  | .addD_A => [0x61, 0x05]
  | .addL_A => [0x61, 0x06]
  | .addH_A => [0x61, 0x07]
  | .addA_X => [0x61, 0x08]
  | .addA_C => [0x61, 0x0A]
  | .addA_B => [0x61, 0x0B]
  | .addA_E => [0x61, 0x0C]
  | .addA_D => [0x61, 0x0D]
  | .addA_L => [0x61, 0x0E]
  | .addA_H => [0x61, 0x0F]
  | .xchA_C => [0x61, 0x8A]
  | .xchA_B => [0x61, 0x8B]
  | .xchA_E => [0x61, 0x8C]
  | .xchA_D => [0x61, 0x8D]
  | .xchA_L => [0x61, 0x8E]
  | .xchA_H => [0x61, 0x8F]
  | .brAX => [0x61, 0xCB]

end Sys2Proof
end

