-- ==== Sys2Proof/Machine/Control.lean ====
section
/-! DEFINITION. Control transfer and no-op (44_control.md R110, R111), and the ES prefix (30_encoding.md R67, R68). -/

namespace Sys2Proof.Machine

/-- R110: the pc becomes AX zero-extended; no segment takes part. -/
def jumpAX (s : State) : Result := .next ((s.consume 2).jump ((s.getPair .AX).setWidth 20))

/-- R111: the pc moves past the byte. -/
def noOperation (s : State) : Result := .next (s.consume 1)

/-- 30_encoding.md R67, R68: in `Normal`, the prefix byte is consumed and `ExtendedPrefix` entered, in the middle of a
cycle. A prefix never stacks: in `ExtendedPrefix` a further 0x11 is an unknown opcode (R74). -/
def enterPrefix (s : State) : Result :=
  if s.prefixActive then raise (Fault.unknownOpcode prefixOpcode · true) s
  else .next (s.consume 1).toExtended

/-- NOP: 44_control.md R111. -/
def execNop (s : State) : Result := noOperation s

/-- ES: (prefix): 30_encoding.md R68. -/
def execEsPrefix (s : State) : Result := enterPrefix s

/-- BR AX: 44_control.md R110. -/
def execBrAX (s : State) : Result := jumpAX s

end Sys2Proof.Machine
end

