-- ==== Sys2Proof/Machine/Exchange.lean ====
section
/-! DEFINITION. Exchange: 42_exchange.md R102 to R104. Both values are read before either is written; no flag is written. -/

namespace Sys2Proof.Machine

/-- R102, R103: A and another byte register swapped by an instruction of `length` bytes. -/
def exchangeBytes (r : Reg) (length : Nat) (s : State) : Result :=
  .next (((s.consume length).setReg .A (s.getReg r)).setReg r (s.getReg .A))

/-- R104: AX and another pair swapped. -/
def exchangePairs (p : Pair) (s : State) : Result :=
  .next (((s.consume 1).setPair .AX (s.getPair p)).setPair p (s.getPair .AX))

/-- XCH A,X: 42_exchange.md R102. -/
def execXchA_X (s : State) : Result := exchangeBytes .X 1 s

/-- XCHW AX,BC: 42_exchange.md R104. -/
def execXchwAX_BC (s : State) : Result := exchangePairs .BC s

/-- XCHW AX,DE: 42_exchange.md R104. -/
def execXchwAX_DE (s : State) : Result := exchangePairs .DE s

/-- XCHW AX,HL: 42_exchange.md R104. -/
def execXchwAX_HL (s : State) : Result := exchangePairs .HL s

/-- XCH A,C: 42_exchange.md R103. -/
def execXchA_C (s : State) : Result := exchangeBytes .C 2 s

/-- XCH A,B: 42_exchange.md R103. -/
def execXchA_B (s : State) : Result := exchangeBytes .B 2 s

/-- XCH A,E: 42_exchange.md R103. -/
def execXchA_E (s : State) : Result := exchangeBytes .E 2 s

/-- XCH A,D: 42_exchange.md R103. -/
def execXchA_D (s : State) : Result := exchangeBytes .D 2 s

/-- XCH A,L: 42_exchange.md R103. -/
def execXchA_L (s : State) : Result := exchangeBytes .L 2 s

/-- XCH A,H: 42_exchange.md R103. -/
def execXchA_H (s : State) : Result := exchangeBytes .H 2 s

end Sys2Proof.Machine
end

