-- ==== Sys2Proof/Machine/Operands.lean ====
section
/-! DEFINITION. The addressing modes: 20_memory.md R42 to R48. A read and a write of one mode use the same function (R48). -/

namespace Sys2Proof.Machine

/-- The modes that consult the ES prefix: 00_scope.md R14. -/
inductive AddrMode where
  | absolute
  | indirect
  deriving DecidableEq, Repr

/-- `(es << 16) | a16`, masked to 20 bits: 20_memory.md R42, R43. -/
def segmented (es : Byte) (a16 : Word) : Addr :=
  ((es.setWidth 24 <<< 16) ||| a16.setWidth 24).setWidth 20

/-- `Resolve(mode, a16)`: 20_memory.md R42, R43. The two default banks differ. -/
def resolve (mode : AddrMode) (a16 : Word) (s : State) : Addr :=
  if s.prefixActive then segmented s.es a16
  else
    match mode with
    | .absolute => a16.setWidth 20
    | .indirect => a16.setWidth 20 ||| 0xF0000

/-- The logical address of `[rp+byte]`: the displacement zero-extended, the sum wrapping in 16 bits (20_memory.md R44; log
entry 16). -/
def displaced (p : Pair) (disp : Byte) (s : State) : Word := s.getPair p + disp.setWidth 16

/-- `SaddrAddr(s)`: 20_memory.md R45. -/
def saddrAddr (saddr : Byte) : Addr := 0xFE20 + saddr.setWidth 20

/-- `SfrRead(c)`, `none` for NotFound: 20_memory.md R47. -/
def sfrRead (code : Byte) (s : State) : Option Byte :=
  if code = 0xFA then some s.psw
  else if code = 0xFC then some s.cs
  else if code = 0xFD then some s.es
  else none

/-- `SfrWrite(c, v)`, `none` for NotFound: 20_memory.md R47. -/
def sfrWrite (code v : Byte) (s : State) : Option State :=
  if code = 0xFA then some (s.setPsw v)
  else if code = 0xFC then some (s.setCs v)
  else if code = 0xFD then some (s.setEs v)
  else none

end Sys2Proof.Machine
end

