-- ==== Sys2Proof/Machine/Move.lean ====
section
/-! DEFINITION. The byte move family: 40_move.md R84 to R96. No move writes a flag, but MOV sfr,A with the PSW's code.

Each shared operation reads the state at the first opcode byte, `s`; consuming the instruction's bytes moves the pc and
nothing else, so reading before or after is the same (70_reset_and_hazards.md R141). -/

namespace Sys2Proof.Machine

/-- R84: an immediate into a byte register. -/
def loadImmediate (r : Reg) (imm : Byte) (s : State) : Result := .next ((s.consume 2).setReg r imm)

/-- R85, R86: one byte register into another. -/
def copyByte (dst src : Reg) (s : State) : Result := .next ((s.consume 1).setReg dst (s.getReg src))

/-- R87: a byte of the short-address window into a register. -/
def loadShort (r : Reg) (saddr : Byte) (s : State) : Result :=
  if saddrInRange saddr then .next ((s.consume 2).setReg r (s.memRead (saddrAddr saddr)))
  else raise (Fault.saddrOutOfRange saddr) s

/-- R88: A into the short-address window. -/
def storeShort (saddr : Byte) (s : State) : Result :=
  if saddrInRange saddr then .next ((s.consume 2).memWrite (saddrAddr saddr) (s.getReg .A))
  else raise (Fault.saddrOutOfRange saddr) s

/-- R89: the byte at an absolute address into a register. -/
def loadAbsolute (r : Reg) (addr : Word) (s : State) : Result :=
  .next ((s.consume 3).setReg r (s.memRead (resolve .absolute addr s)))

/-- R90: A to an absolute address. -/
def storeAbsolute (addr : Word) (s : State) : Result :=
  .next ((s.consume 3).memWrite (resolve .absolute addr s) (s.getReg .A))

/-- R91: the byte a pair points to into A. -/
def loadIndirect (p : Pair) (s : State) : Result :=
  .next ((s.consume 1).setReg .A (s.memRead (resolve .indirect (s.getPair p) s)))

/-- R92: A to where a pair points. -/
def storeIndirect (p : Pair) (s : State) : Result :=
  .next ((s.consume 1).memWrite (resolve .indirect (s.getPair p) s) (s.getReg .A))

/-- R93: the byte at a pair plus a displacement into A. -/
def loadDisplaced (p : Pair) (disp : Byte) (s : State) : Result :=
  .next ((s.consume 2).setReg .A (s.memRead (resolve .indirect (displaced p disp s) s)))

/-- R94: A to a pair plus a displacement. -/
def storeDisplaced (p : Pair) (disp : Byte) (s : State) : Result :=
  .next ((s.consume 2).memWrite (resolve .indirect (displaced p disp s) s) (s.getReg .A))

/-- R95: a CPU-internal register into A. -/
def loadSfr (sfr : Byte) (s : State) : Result :=
  match sfrRead sfr s with
  | some v => .next ((s.consume 2).setReg .A v)
  | none => raise (Fault.unmappedSfr sfr) s

/-- R96: A into a CPU-internal register. -/
def storeSfr (sfr : Byte) (s : State) : Result :=
  match sfrWrite sfr (s.getReg .A) (s.consume 2) with
  | some t => .next t
  | none => raise (Fault.unmappedSfr sfr) s

/-- MOV X,#byte: 40_move.md R84. -/
def execMovX_byte (imm : Byte) (s : State) : Result := loadImmediate .X imm s

/-- MOV A,#byte: 40_move.md R84. -/
def execMovA_byte (imm : Byte) (s : State) : Result := loadImmediate .A imm s

/-- MOV C,#byte: 40_move.md R84. -/
def execMovC_byte (imm : Byte) (s : State) : Result := loadImmediate .C imm s

/-- MOV B,#byte: 40_move.md R84. -/
def execMovB_byte (imm : Byte) (s : State) : Result := loadImmediate .B imm s

/-- MOV E,#byte: 40_move.md R84. -/
def execMovE_byte (imm : Byte) (s : State) : Result := loadImmediate .E imm s

/-- MOV D,#byte: 40_move.md R84. -/
def execMovD_byte (imm : Byte) (s : State) : Result := loadImmediate .D imm s

/-- MOV L,#byte: 40_move.md R84. -/
def execMovL_byte (imm : Byte) (s : State) : Result := loadImmediate .L imm s

/-- MOV H,#byte: 40_move.md R84. -/
def execMovH_byte (imm : Byte) (s : State) : Result := loadImmediate .H imm s

/-- MOV A,X: 40_move.md R85. -/
def execMovA_X (s : State) : Result := copyByte .A .X s

/-- MOV A,C: 40_move.md R85. -/
def execMovA_C (s : State) : Result := copyByte .A .C s

/-- MOV A,B: 40_move.md R85. -/
def execMovA_B (s : State) : Result := copyByte .A .B s

/-- MOV A,E: 40_move.md R85. -/
def execMovA_E (s : State) : Result := copyByte .A .E s

/-- MOV A,D: 40_move.md R85. -/
def execMovA_D (s : State) : Result := copyByte .A .D s

/-- MOV A,L: 40_move.md R85. -/
def execMovA_L (s : State) : Result := copyByte .A .L s

/-- MOV A,H: 40_move.md R85. -/
def execMovA_H (s : State) : Result := copyByte .A .H s

/-- MOV X,A: 40_move.md R86. -/
def execMovX_A (s : State) : Result := copyByte .X .A s

/-- MOV C,A: 40_move.md R86. -/
def execMovC_A (s : State) : Result := copyByte .C .A s

/-- MOV B,A: 40_move.md R86. -/
def execMovB_A (s : State) : Result := copyByte .B .A s

/-- MOV E,A: 40_move.md R86. -/
def execMovE_A (s : State) : Result := copyByte .E .A s

/-- MOV D,A: 40_move.md R86. -/
def execMovD_A (s : State) : Result := copyByte .D .A s

/-- MOV L,A: 40_move.md R86. -/
def execMovL_A (s : State) : Result := copyByte .L .A s

/-- MOV H,A: 40_move.md R86. -/
def execMovH_A (s : State) : Result := copyByte .H .A s

/-- MOV A,[DE]: 40_move.md R91. -/
def execMovA_atDE (s : State) : Result := loadIndirect .DE s

/-- MOV A,[DE+byte]: 40_move.md R93. -/
def execMovA_atDEdisp (disp : Byte) (s : State) : Result := loadDisplaced .DE disp s

/-- MOV A,[HL]: 40_move.md R91. -/
def execMovA_atHL (s : State) : Result := loadIndirect .HL s

/-- MOV A,[HL+byte]: 40_move.md R93. -/
def execMovA_atHLdisp (disp : Byte) (s : State) : Result := loadDisplaced .HL disp s

/-- MOV A,saddr: 40_move.md R87. -/
def execMovA_saddr (saddr : Byte) (s : State) : Result := loadShort .A saddr s

/-- MOV A,sfr: 40_move.md R95. -/
def execMovA_sfr (sfr : Byte) (s : State) : Result := loadSfr sfr s

/-- MOV A,!addr16: 40_move.md R89. -/
def execMovA_abs (addr : Word) (s : State) : Result := loadAbsolute .A addr s

/-- MOV [DE],A: 40_move.md R92. -/
def execMovAtDE_A (s : State) : Result := storeIndirect .DE s

/-- MOV [DE+byte],A: 40_move.md R94. -/
def execMovAtDEdisp_A (disp : Byte) (s : State) : Result := storeDisplaced .DE disp s

/-- MOV [HL],A: 40_move.md R92. -/
def execMovAtHL_A (s : State) : Result := storeIndirect .HL s

/-- MOV [HL+byte],A: 40_move.md R94. -/
def execMovAtHLdisp_A (disp : Byte) (s : State) : Result := storeDisplaced .HL disp s

/-- MOV saddr,A: 40_move.md R88. -/
def execMovSaddr_A (saddr : Byte) (s : State) : Result := storeShort saddr s

/-- MOV sfr,A: 40_move.md R96. -/
def execMovSfr_A (sfr : Byte) (s : State) : Result := storeSfr sfr s

/-- MOV !addr16,A: 40_move.md R90. -/
def execMovAbs_A (addr : Word) (s : State) : Result := storeAbsolute addr s

/-- MOV X,saddr: 40_move.md R87. -/
def execMovX_saddr (saddr : Byte) (s : State) : Result := loadShort .X saddr s

/-- MOV B,saddr: 40_move.md R87. -/
def execMovB_saddr (saddr : Byte) (s : State) : Result := loadShort .B saddr s

/-- MOV C,saddr: 40_move.md R87. -/
def execMovC_saddr (saddr : Byte) (s : State) : Result := loadShort .C saddr s

/-- MOV X,!addr16: 40_move.md R89. -/
def execMovX_abs (addr : Word) (s : State) : Result := loadAbsolute .X addr s

/-- MOV B,!addr16: 40_move.md R89. -/
def execMovB_abs (addr : Word) (s : State) : Result := loadAbsolute .B addr s

/-- MOV C,!addr16: 40_move.md R89. -/
def execMovC_abs (addr : Word) (s : State) : Result := loadAbsolute .C addr s

end Sys2Proof.Machine
end

