-- ==== Sys2Proof/Machine/Pair.lean ====
section
/-! DEFINITION. Register-pair move, clear and set-to-one: 41_pair.md R97 to R101. No flag is written and no data memory
accessed. -/

namespace Sys2Proof.Machine

/-- R97: a 16-bit immediate into a pair. -/
def loadWord (p : Pair) (imm : Word) (s : State) : Result := .next ((s.consume 3).setPair p imm)

/-- R98, R99: one pair into another. -/
def copyPair (dst src : Pair) (s : State) : Result := .next ((s.consume 1).setPair dst (s.getPair src))

/-- R100, R101: a constant into a pair; Z is not written. -/
def setPairTo (p : Pair) (v : Word) (s : State) : Result := .next ((s.consume 1).setPair p v)

/-- MOVW BC,AX: 41_pair.md R99. -/
def execMovwBC_AX (s : State) : Result := copyPair .BC .AX s

/-- MOVW DE,AX: 41_pair.md R99. -/
def execMovwDE_AX (s : State) : Result := copyPair .DE .AX s

/-- MOVW HL,AX: 41_pair.md R99. -/
def execMovwHL_AX (s : State) : Result := copyPair .HL .AX s

/-- MOVW AX,BC: 41_pair.md R98. -/
def execMovwAX_BC (s : State) : Result := copyPair .AX .BC s

/-- MOVW AX,DE: 41_pair.md R98. -/
def execMovwAX_DE (s : State) : Result := copyPair .AX .DE s

/-- MOVW AX,HL: 41_pair.md R98. -/
def execMovwAX_HL (s : State) : Result := copyPair .AX .HL s

/-- MOVW AX,#word: 41_pair.md R97. -/
def execMovwAX_word (imm : Word) (s : State) : Result := loadWord .AX imm s

/-- MOVW BC,#word: 41_pair.md R97. -/
def execMovwBC_word (imm : Word) (s : State) : Result := loadWord .BC imm s

/-- MOVW DE,#word: 41_pair.md R97. -/
def execMovwDE_word (imm : Word) (s : State) : Result := loadWord .DE imm s

/-- MOVW HL,#word: 41_pair.md R97. -/
def execMovwHL_word (imm : Word) (s : State) : Result := loadWord .HL imm s

/-- ONEW AX: 41_pair.md R101. -/
def execOnewAX (s : State) : Result := setPairTo .AX 0x0001 s

/-- ONEW BC: 41_pair.md R101. -/
def execOnewBC (s : State) : Result := setPairTo .BC 0x0001 s

/-- CLRW AX: 41_pair.md R100. -/
def execClrwAX (s : State) : Result := setPairTo .AX 0x0000 s

/-- CLRW BC: 41_pair.md R100. -/
def execClrwBC (s : State) : Result := setPairTo .BC 0x0000 s

end Sys2Proof.Machine
end

