-- ==== Sys2Proof/Machine/Dispatch.lean ====
section
/-! DEFINITION. The dispatch of 30_encoding.md R70: each instruction selects exactly one meaning. -/

namespace Sys2Proof.Machine

def exec (i : Instr) (s : State) : Host.Outcome State Fault Refusal :=
  match i with
  | .nop => Sys2Proof.Machine.execNop s
  | .xchA_X => Sys2Proof.Machine.execXchA_X s
  | .addA_byte imm => Sys2Proof.Machine.execAddA_byte imm s
  | .esPrefix => Sys2Proof.Machine.execEsPrefix s
  | .movwBC_AX => Sys2Proof.Machine.execMovwBC_AX s
  | .movwDE_AX => Sys2Proof.Machine.execMovwDE_AX s
  | .movwHL_AX => Sys2Proof.Machine.execMovwHL_AX s
  | .movwAX_BC => Sys2Proof.Machine.execMovwAX_BC s
  | .movwAX_DE => Sys2Proof.Machine.execMovwAX_DE s
  | .movwAX_HL => Sys2Proof.Machine.execMovwAX_HL s
  | .movwAX_word imm => Sys2Proof.Machine.execMovwAX_word imm s
  | .movwBC_word imm => Sys2Proof.Machine.execMovwBC_word imm s
  | .movwDE_word imm => Sys2Proof.Machine.execMovwDE_word imm s
  | .movwHL_word imm => Sys2Proof.Machine.execMovwHL_word imm s
  | .xchwAX_BC => Sys2Proof.Machine.execXchwAX_BC s
  | .xchwAX_DE => Sys2Proof.Machine.execXchwAX_DE s
  | .xchwAX_HL => Sys2Proof.Machine.execXchwAX_HL s
  | .movX_byte imm => Sys2Proof.Machine.execMovX_byte imm s
  | .movA_byte imm => Sys2Proof.Machine.execMovA_byte imm s
  | .movC_byte imm => Sys2Proof.Machine.execMovC_byte imm s
  | .movB_byte imm => Sys2Proof.Machine.execMovB_byte imm s
  | .movE_byte imm => Sys2Proof.Machine.execMovE_byte imm s
  | .movD_byte imm => Sys2Proof.Machine.execMovD_byte imm s
  | .movL_byte imm => Sys2Proof.Machine.execMovL_byte imm s
  | .movH_byte imm => Sys2Proof.Machine.execMovH_byte imm s
  | .movA_X => Sys2Proof.Machine.execMovA_X s
  | .movA_C => Sys2Proof.Machine.execMovA_C s
  | .movA_B => Sys2Proof.Machine.execMovA_B s
  | .movA_E => Sys2Proof.Machine.execMovA_E s
  | .movA_D => Sys2Proof.Machine.execMovA_D s
  | .movA_L => Sys2Proof.Machine.execMovA_L s
  | .movA_H => Sys2Proof.Machine.execMovA_H s
  | .movX_A => Sys2Proof.Machine.execMovX_A s
  | .movC_A => Sys2Proof.Machine.execMovC_A s
  | .movB_A => Sys2Proof.Machine.execMovB_A s
  | .movE_A => Sys2Proof.Machine.execMovE_A s
  | .movD_A => Sys2Proof.Machine.execMovD_A s
  | .movL_A => Sys2Proof.Machine.execMovL_A s
  | .movH_A => Sys2Proof.Machine.execMovH_A s
  | .movA_atDE => Sys2Proof.Machine.execMovA_atDE s
  | .movA_atDEdisp disp => Sys2Proof.Machine.execMovA_atDEdisp disp s
  | .movA_atHL => Sys2Proof.Machine.execMovA_atHL s
  | .movA_atHLdisp disp => Sys2Proof.Machine.execMovA_atHLdisp disp s
  | .movA_saddr saddr => Sys2Proof.Machine.execMovA_saddr saddr s
  | .movA_sfr sfr => Sys2Proof.Machine.execMovA_sfr sfr s
  | .movA_abs addr => Sys2Proof.Machine.execMovA_abs addr s
  | .movAtDE_A => Sys2Proof.Machine.execMovAtDE_A s
  | .movAtDEdisp_A disp => Sys2Proof.Machine.execMovAtDEdisp_A disp s
  | .movAtHL_A => Sys2Proof.Machine.execMovAtHL_A s
  | .movAtHLdisp_A disp => Sys2Proof.Machine.execMovAtHLdisp_A disp s
  | .movSaddr_A saddr => Sys2Proof.Machine.execMovSaddr_A saddr s
  | .movSfr_A sfr => Sys2Proof.Machine.execMovSfr_A sfr s
  | .movAbs_A addr => Sys2Proof.Machine.execMovAbs_A addr s
  | .movX_saddr saddr => Sys2Proof.Machine.execMovX_saddr saddr s
  | .movB_saddr saddr => Sys2Proof.Machine.execMovB_saddr saddr s
  | .movC_saddr saddr => Sys2Proof.Machine.execMovC_saddr saddr s
  | .movX_abs addr => Sys2Proof.Machine.execMovX_abs addr s
  | .movB_abs addr => Sys2Proof.Machine.execMovB_abs addr s
  | .movC_abs addr => Sys2Proof.Machine.execMovC_abs addr s
  | .onewAX => Sys2Proof.Machine.execOnewAX s
  | .onewBC => Sys2Proof.Machine.execOnewBC s
  | .clrwAX => Sys2Proof.Machine.execClrwAX s
  | .clrwBC => Sys2Proof.Machine.execClrwBC s
  | .addX_A => Sys2Proof.Machine.execAddX_A s
  | .addA_A => Sys2Proof.Machine.execAddA_A s
  | .addC_A => Sys2Proof.Machine.execAddC_A s
  | .addB_A => Sys2Proof.Machine.execAddB_A s
  | .addE_A => Sys2Proof.Machine.execAddE_A s
  | .addD_A => Sys2Proof.Machine.execAddD_A s
  | .addL_A => Sys2Proof.Machine.execAddL_A s
  | .addH_A => Sys2Proof.Machine.execAddH_A s
  | .addA_X => Sys2Proof.Machine.execAddA_X s
  | .addA_C => Sys2Proof.Machine.execAddA_C s
  | .addA_B => Sys2Proof.Machine.execAddA_B s
  | .addA_E => Sys2Proof.Machine.execAddA_E s
  | .addA_D => Sys2Proof.Machine.execAddA_D s
  | .addA_L => Sys2Proof.Machine.execAddA_L s
  | .addA_H => Sys2Proof.Machine.execAddA_H s
  | .xchA_C => Sys2Proof.Machine.execXchA_C s
  | .xchA_B => Sys2Proof.Machine.execXchA_B s
  | .xchA_E => Sys2Proof.Machine.execXchA_E s
  | .xchA_D => Sys2Proof.Machine.execXchA_D s
  | .xchA_L => Sys2Proof.Machine.execXchA_L s
  | .xchA_H => Sys2Proof.Machine.execXchA_H s
  | .brAX => Sys2Proof.Machine.execBrAX s

end Sys2Proof.Machine
end

