-- ==== Sys2Proof/Machine/Fetch.lean ====
section
/-! DEFINITION. The decode engine on memory and the cycle: 30_encoding.md R63, R67 to R74. The cycle takes the dispatch as
an argument, so that this file stands below it. -/

namespace Sys2Proof.Machine

/-- The instruction whose first opcode byte the pc addresses. Peeking has no effect (30_encoding.md R63), so the window of
three bytes is read whatever the instruction's length (log entry 23). -/
def decodeAt (s : State) : Except Undecoded (Instr × Nat) :=
  decodeWindow s.prefixActive (s.peek 0) (s.peek 1) (s.peek 2)

/-- The decoder's error as a fault: 60_exceptions.md R116, R117. -/
def raiseUndecoded (why : Undecoded) (s : State) : Result :=
  match why with
  | .unknownOpcode b => raise (Fault.unknownOpcode b · s.prefixActive) s
  | .unknownSecondaryOpcode b => raise (Fault.unknownSecondaryOpcode escapeOpcode b · s.prefixActive) s

/-- The clearing of the prefix after a handler that committed: 30_encoding.md R69. -/
def clearPrefix : Result → Result
  | .next t => .next t.toNormal
  | .fault f => .fault f
  | .refused r => .refused r

/-- Decode, run the handler, clear the prefix: 30_encoding.md R71 from the first opcode byte on. -/
def runDecoded (run : Instr → State → Result) (s : State) : Result :=
  match decodeAt s with
  | .error why => raiseUndecoded why s
  | .ok (i, _) => clearPrefix (run i s)

/-- One cycle: 30_encoding.md R71. A prefix byte is run as the instruction `esPrefix`, and the instruction after it in the
same cycle (R68; log entry 5). -/
def cycle (run : Instr → State → Result) (s : State) : Result :=
  if s.toNormal.peek 0 = prefixOpcode then
    match run .esPrefix s.toNormal with
    | .next t => runDecoded run t
    | .fault f => .fault f
    | .refused r => .refused r
  else runDecoded run s.toNormal

end Sys2Proof.Machine
end

