-- ==== Sys2Proof/Machine/Step.lean ====
section
/-! DEFINITION. One step is one cycle of single-cycle execution: 30_encoding.md R71. -/

namespace Sys2Proof.Machine

/-- Single-cycle execution. -/
def step (s : State) : Host.Outcome State Fault Refusal := cycle exec s

/-- `s` with the instruction the opcode table numbers `w` stored at the pc, where the next cycle fetches; it stands for the
host's pre-load (log entry 10). -/
def State.withFetchWord (s : State) (nbits w : Nat) : State := s.placeBytes s.pc (tableBytes nbits w)

end Sys2Proof.Machine
end

