-- ==== Sys2Proof/Machine/Driver.lean ====
section
/-! DEFINITION. The host interface: 60_exceptions.md R132. Reset is `State.resetWith`; the other four operations stand here.

The host pre-loads only between reset and the first cycle and never writes while a program runs (R132, R138); that is the
host's part, which no function of the state can check (log entry 10). -/

namespace Sys2Proof.Machine

/-- Bytes written at successive addresses, without a wrap. -/
def preloadBytes (m : Memory) (offset : Nat) : List Byte → Memory
  | [] => m
  | b :: rest => preloadBytes (m.write offset b) (offset + 1) rest

/-- Pre-load: `mem[o+i] <- b[i]`, refused where it would pass 0xFFFFF (60_exceptions.md R132). -/
def preload (offset : Nat) (bytes : List Byte) (s : State) : Result :=
  if offset + bytes.length ≤ memSize then .next { s with mem := preloadBytes s.mem offset bytes }
  else .refused (.preloadPastEnd offset bytes.length)

/-- What single-cycle execution reports: 60_exceptions.md R114. -/
inductive Report where
  /-- The instruction's whole effect was committed. -/
  | ok
  /-- The cycle committed nothing. -/
  | err (error : Fault)
  /-- The model gives the cycle no meaning; `step` never answers so. -/
  | unmodelled (reason : Refusal)
  deriving DecidableEq, Repr

/-- Single-cycle execution as the host sees it: the report, and the state, which an error leaves as it was (60_exceptions.md
R114, R123). -/
def singleCycle (s : State) : Report × State :=
  match step s with
  | .next t => (.ok, t)
  | .fault f => (.err f, s)
  | .refused r => (.unmodelled r, s)

/-- What introspection gives back: 60_exceptions.md R132. -/
structure Introspection where
  pc : Addr
  sp : Word
  psw : Byte
  es : Byte
  cs : Byte
  bytes : Vector Byte 8
  pairs : Vector Word 4
  deriving DecidableEq, Repr

/-- State introspection, read-only: 60_exceptions.md R132. -/
def introspect (s : State) : Introspection where
  pc := s.pc
  sp := s.sp
  psw := s.psw
  es := s.es
  cs := s.cs
  bytes := s.regs
  pairs := #v[s.getPair .AX, s.getPair .BC, s.getPair .DE, s.getPair .HL]

/-- The host's memory read between cycles, read-only: 60_exceptions.md R132. -/
def inspectByte (a : Addr) (s : State) : Byte := s.memRead a

/-- The numeric codes of the error kinds: 60_exceptions.md R115 (the spec's own numbers, D12). -/
def Fault.code : Fault → Nat
  | .unknownOpcode _ _ _ => 1
  | .unknownSecondaryOpcode _ _ _ _ => 2
  | .unmappedSfr _ _ => 3
  | .saddrOutOfRange _ _ => 4
  | .outOfBounds _ => 5

/-- The cycle-start pc an error records, where its kind records one: 60_exceptions.md R115. -/
def Fault.pc? : Fault → Option Addr
  | .unknownOpcode _ pc _ => some pc
  | .unknownSecondaryOpcode _ _ pc _ => some pc
  | .unmappedSfr _ pc => some pc
  | .saddrOutOfRange _ pc => some pc
  | .outOfBounds _ => none

end Sys2Proof.Machine
end

