-- ==== Sys2Proof/WellFormed.lean ====
section
/-! DEFINITION. Which instructions carry operands inside the spec's domains.

Every operand value can be encoded; the two checks below are the operand checks of 60_exceptions.md R122: a short-address
operand in 0x00 to 0xDF (20_memory.md R45, R46) and a mapped SFR code (20_memory.md R47). An instruction that fails one
decodes, and its meaning raises the error the spec names (log entry 20). -/

namespace Sys2Proof

/-- The operand checks of 60_exceptions.md R122 (2); every other instruction has none. -/
def Instr.wellFormed : Instr → Bool
  | .nop => true
  | .xchA_X => true
  | .addA_byte _ => true
  | .esPrefix => true
  | .movwBC_AX => true
  | .movwDE_AX => true
  | .movwHL_AX => true
  | .movwAX_BC => true
  | .movwAX_DE => true
  | .movwAX_HL => true
  | .movwAX_word _ => true
  | .movwBC_word _ => true
  | .movwDE_word _ => true
  | .movwHL_word _ => true
  | .xchwAX_BC => true
  | .xchwAX_DE => true
  | .xchwAX_HL => true
  | .movX_byte _ => true
  | .movA_byte _ => true
  | .movC_byte _ => true
  | .movB_byte _ => true
  | .movE_byte _ => true
  | .movD_byte _ => true
  | .movL_byte _ => true
  | .movH_byte _ => true
  | .movA_X => true
  | .movA_C => true
  | .movA_B => true
  | .movA_E => true
  | .movA_D => true
  | .movA_L => true
  | .movA_H => true
  | .movX_A => true
  | .movC_A => true
  | .movB_A => true
  | .movE_A => true
  | .movD_A => true
  | .movL_A => true
  | .movH_A => true
  | .movA_atDE => true
  | .movA_atDEdisp _ => true
  | .movA_atHL => true
  | .movA_atHLdisp _ => true
  | .movA_saddr saddr => saddrInRange saddr
  | .movA_sfr sfr => sfrMapped sfr
  | .movA_abs _ => true
  | .movAtDE_A => true
  | .movAtDEdisp_A _ => true
  | .movAtHL_A => true
  | .movAtHLdisp_A _ => true
  | .movSaddr_A saddr => saddrInRange saddr
  | .movSfr_A sfr => sfrMapped sfr
  | .movAbs_A _ => true
  | .movX_saddr saddr => saddrInRange saddr
  | .movB_saddr saddr => saddrInRange saddr
  | .movC_saddr saddr => saddrInRange saddr
  | .movX_abs _ => true
  | .movB_abs _ => true
  | .movC_abs _ => true
  | .onewAX => true
  | .onewBC => true
  | .clrwAX => true
  | .clrwBC => true
  | .addX_A => true
  | .addA_A => true
  | .addC_A => true
  | .addB_A => true
  | .addE_A => true
  | .addD_A => true
  | .addL_A => true
  | .addH_A => true
  | .addA_X => true
  | .addA_C => true
  | .addA_B => true
  | .addA_E => true
  | .addA_D => true
  | .addA_L => true
  | .addA_H => true
  | .xchA_C => true
  | .xchA_B => true
  | .xchA_E => true
  | .xchA_D => true
  | .xchA_L => true
  | .xchA_H => true
  | .brAX => true

end Sys2Proof
end

