-- ==== Sys2Proof/Safety.lean ====
section
/-! DEFINITION. The terms claims are stated in: the invariant of cycle boundaries, frames, and the spec's own lists of what
an instruction admits, writes, stores to and consults. -/

namespace Sys2Proof.Machine

/-! ### The invariant -/

/-- What holds between any two cycles: the decoder is in `Normal` (10_state.md R37; `pc < 2^20` holds by its type), and the
memory is in its canonical form. -/
def State.Inv (s : State) : Prop := s.prefixActive = false ∧ s.mem.wf

/-! ### Frames -/

/-- Every byte register outside `rs` is unchanged. -/
def BytesKeptBut (rs : List Reg) (s t : State) : Prop := ∀ q, q ∉ rs → t.getReg q = s.getReg q

/-- SP, ES, CS and the prefix flag are unchanged. -/
def SegmentsKept (s t : State) : Prop :=
  t.sp = s.sp ∧ t.es = s.es ∧ t.cs = s.cs ∧ t.prefixActive = s.prefixActive

/-- Every byte of memory is unchanged. -/
def MemoryKept (s t : State) : Prop := ∀ a, t.memRead a = s.memRead a

/-- Every byte of memory but the one at `a` is unchanged. -/
def MemoryKeptBut (a : Addr) (s t : State) : Prop := ∀ b, b ≠ a → t.memRead b = s.memRead b

/-- The frame of a register-only instruction without flags: apart from the pc, only the registers `rs` may change. -/
def RegisterFrame (rs : List Reg) (s t : State) : Prop :=
  BytesKeptBut rs s t ∧ t.psw = s.psw ∧ SegmentsKept s t ∧ MemoryKept s t

/-- A register-only instruction of `n` bytes. -/
def AdvancesBy (n : Nat) (s t : State) : Prop := t.pc = s.pc + BitVec.ofNat 20 n

/-- A store of `v` at `a`: that one byte, and apart from the pc nothing else changes. -/
def StoresOnly (a : Addr) (v : Byte) (s t : State) : Prop :=
  t.memRead a = v ∧ MemoryKeptBut a s t ∧ BytesKeptBut [] s t ∧ t.psw = s.psw ∧ SegmentsKept s t

/-- The PSW bits outside `ks` are unchanged. -/
def PswBitsKeptBut (ks : List Nat) (s t : State) : Prop := ∀ k, k ∉ ks → t.psw.getLsbD k = s.psw.getLsbD k

/-- The source's testable form of the flag rules, for an addition of `b` to `a`: 43_arith.md R105. CY, AC and Z are bits 0, 4
and 6 (10_state.md R27). -/
def FlagsOfAdd (a b : Byte) (s t : State) : Prop :=
  t.psw.getLsbD 0 = decide (a.toNat + b.toNat > 0xFF) ∧
  t.psw.getLsbD 4 = decide (a.toNat % 16 + b.toNat % 16 > 0xF) ∧
  t.psw.getLsbD 6 = decide ((a.toNat + b.toNat) % 256 = 0) ∧
  PswBitsKeptBut [0, 4, 6] s t

/-- The whole effect of an ADD into `dst`, apart from the pc: 43_arith.md R105 to R108. -/
def AddsInto (dst : Reg) (b : Byte) (s t : State) : Prop :=
  (t.getReg dst).toNat = ((s.getReg dst).toNat + b.toNat) % 256 ∧
  FlagsOfAdd (s.getReg dst) b s t ∧ BytesKeptBut [dst] s t ∧ SegmentsKept s t ∧ MemoryKept s t

/-! ### The spec's lists -/

/-- The 62 admitted first-map bytes, read off the grid of 30_encoding.md R79. -/
def admittedFirst (b : Byte) : Prop :=
  b ∈ ([0x00, 0x08, 0x0C] : List Byte) ∨ (0x12 ≤ b ∧ b ≤ 0x17) ∨ (0x30 ≤ b ∧ b ≤ 0x37 ∧ b ≠ 0x31) ∨
  (0x50 ≤ b ∧ b ≤ 0x57) ∨ (0x60 ≤ b ∧ b ≤ 0x67 ∧ b ≠ 0x61) ∨ (0x70 ≤ b ∧ b ≤ 0x77 ∧ b ≠ 0x71) ∨
  (0x89 ≤ b ∧ b ≤ 0x8F) ∨ (0x99 ≤ b ∧ b ≤ 0x9F) ∨ (0xD8 ≤ b ∧ b ≤ 0xD9) ∨ (0xE6 ≤ b ∧ b ≤ 0xE9) ∨
  (0xF6 ≤ b ∧ b ≤ 0xF9)

/-- The 22 admitted second-map bytes: 30_encoding.md R80. -/
def admittedSecond (b : Byte) : Prop :=
  (b ≤ 0x0F ∧ b ≠ 0x09) ∨ (0x8A ≤ b ∧ b ≤ 0x8F) ∨ b = 0xCB

/-- The general registers an instruction writes: the last column of 10_state.md R23. -/
def writesOf : Instr → List Reg
  | .movX_byte _ | .movX_A | .movX_saddr _ | .movX_abs _ | .addX_A => [.X]
  | .movA_byte _ | .movA_X | .movA_C | .movA_B | .movA_E | .movA_D | .movA_L | .movA_H | .movA_saddr _ | .movA_abs _
  | .movA_atDE | .movA_atHL | .movA_atDEdisp _ | .movA_atHLdisp _ | .movA_sfr _ => [.A]
  | .addA_byte _ | .addA_A | .addA_X | .addA_C | .addA_B | .addA_E | .addA_D | .addA_L | .addA_H => [.A]
  | .movC_byte _ | .movC_A | .movC_saddr _ | .movC_abs _ | .addC_A => [.C]
  | .movB_byte _ | .movB_A | .movB_saddr _ | .movB_abs _ | .addB_A => [.B]
  | .movE_byte _ | .movE_A | .addE_A => [.E]
  | .movD_byte _ | .movD_A | .addD_A => [.D]
  | .movL_byte _ | .movL_A | .addL_A => [.L]
  | .movH_byte _ | .movH_A | .addH_A => [.H]
  | .movwAX_word _ | .movwAX_BC | .movwAX_DE | .movwAX_HL | .onewAX | .clrwAX | .xchA_X => [.A, .X]
  | .movwBC_word _ | .movwBC_AX | .onewBC | .clrwBC => [.B, .C]
  | .movwDE_word _ | .movwDE_AX => [.D, .E]
  | .movwHL_word _ | .movwHL_AX => [.H, .L]
  | .xchA_C => [.A, .C]
  | .xchA_B => [.A, .B]
  | .xchA_E => [.A, .E]
  | .xchA_D => [.A, .D]
  | .xchA_L => [.A, .L]
  | .xchA_H => [.A, .H]
  | .xchwAX_BC => [.A, .X, .B, .C]
  | .xchwAX_DE => [.A, .X, .D, .E]
  | .xchwAX_HL => [.A, .X, .H, .L]
  | .movAtDE_A | .movAtHL_A | .movAtDEdisp_A _ | .movAtHLdisp_A _ | .movSaddr_A _ | .movSfr_A _ | .movAbs_A _ => []
  | .brAX | .nop | .esPrefix => []

/-- The address an instruction stores A to, if it stores: 40_move.md R88, R90, R92 and R94. -/
def storeTarget (i : Instr) (s : State) : Option Addr :=
  match i with
  | .movSaddr_A saddr => some (saddrAddr saddr)
  | .movAbs_A addr => some (resolve .absolute addr s)
  | .movAtDE_A => some (resolve .indirect (s.getPair .DE) s)
  | .movAtHL_A => some (resolve .indirect (s.getPair .HL) s)
  | .movAtDEdisp_A disp => some (resolve .indirect (displaced .DE disp s) s)
  | .movAtHLdisp_A disp => some (resolve .indirect (displaced .HL disp s) s)
  | .nop | .xchA_X | .addA_byte _ | .esPrefix | .movwBC_AX | .movwDE_AX | .movwHL_AX | .movwAX_BC | .movwAX_DE |
  .movwAX_HL | .movwAX_word _ | .movwBC_word _ | .movwDE_word _ | .movwHL_word _ | .xchwAX_BC | .xchwAX_DE |
  .xchwAX_HL | .movX_byte _ | .movA_byte _ | .movC_byte _ | .movB_byte _ | .movE_byte _ | .movD_byte _ |
  .movL_byte _ | .movH_byte _ | .movA_X | .movA_C | .movA_B | .movA_E | .movA_D | .movA_L | .movA_H | .movX_A |
  .movC_A | .movB_A | .movE_A | .movD_A | .movL_A | .movH_A | .movA_atDE | .movA_atDEdisp _ | .movA_atHL |
  .movA_atHLdisp _ | .movA_saddr _ | .movA_sfr _ | .movA_abs _ | .movSfr_A _ | .movX_saddr _ | .movB_saddr _ |
  .movC_saddr _ | .movX_abs _ | .movB_abs _ | .movC_abs _ | .onewAX | .onewBC | .clrwAX | .clrwBC | .addX_A |
  .addA_A | .addC_A | .addB_A | .addE_A | .addD_A | .addL_A | .addH_A | .addA_X | .addA_C | .addA_B | .addA_E |
  .addA_D | .addA_L | .addA_H | .xchA_C | .xchA_B | .xchA_E | .xchA_D | .xchA_L | .xchA_H | .brAX => none

/-- The ADD family, the only instructions that compute flags: 10_state.md R28, 43_arith.md R106 to R108. -/
def isAdd (i : Instr) : Prop :=
  (∃ imm, i = .addA_byte imm) ∨
  i ∈ ([.addX_A, .addA_A, .addC_A, .addB_A, .addE_A, .addD_A, .addL_A, .addH_A, .addA_X, .addA_C, .addA_B, .addA_E,
    .addA_D, .addA_L, .addA_H] : List Instr)

/-- The instructions with an Absolute, Indirect or Indirect+offset operand, whose addresses the ES prefix changes: 20_memory.md
R48, 30_encoding.md R75. -/
def consultsPrefix (i : Instr) : Prop :=
  (∃ addr, i = .movA_abs addr ∨ i = .movX_abs addr ∨ i = .movB_abs addr ∨ i = .movC_abs addr ∨ i = .movAbs_A addr) ∨
  (∃ disp, i = .movA_atDEdisp disp ∨ i = .movA_atHLdisp disp ∨ i = .movAtDEdisp_A disp ∨ i = .movAtHLdisp_A disp) ∨
  i ∈ ([.movA_atDE, .movA_atHL, .movAtDE_A, .movAtHL_A] : List Instr)

end Sys2Proof.Machine
end

