-- ==== Sys2Proof/Certificates/Slice0/Obligations.lean ====
section
/-! DEFINITION. The statements about the machine, each from the numbered rules its docstring names. A list of rows such as
`(.X, 0x50, .movX_byte)` names the instructions one statement covers, with their registers and opcode bytes. -/

open Sys2Proof Sys2Proof.Machine

/-! ### Encoding and decoding -/

/-- Decode and encode agree, for every instruction, every operand value and every bytes after it, in both states of the
decoder (30_encoding.md R60 to R62, R76, R77). The prefix byte is read in `Normal` only (R74). Opcode bytes: the spec's
general knowledge (GK4, log entry 12). -/
def Obligations.DecodeReadsBackEveryEncoding : Prop :=
  ∀ (i : Instr) (prefixed : Bool) (rest : List Byte), (prefixed = true → i ≠ .esPrefix) →
    decode prefixed (encode i ++ rest) = .ok (i, rest)

/-- Dispatch is exact (30_encoding.md R70): whatever the decoder accepts is the encoding of the instruction it answers,
so no bit of it is dropped and no two byte sequences share an instruction. Opcode bytes: the spec's general knowledge
(GK4, log entry 12). That a prefix after a prefix is no instruction (R74) is the spec's decision D14 (log entry 21). -/
def Obligations.DecodeAcceptsOnlyEncodings : Prop :=
  ∀ (prefixed : Bool) (bytes rest : List Byte) (i : Instr), decode prefixed bytes = .ok (i, rest) →
    bytes = encode i ++ rest ∧ (prefixed = true → i ≠ .esPrefix)

/-- The opcode maps are complete (30_encoding.md R78 to R81): an instruction is decoded from exactly the admitted first
bytes, the prefix byte in `Normal`, and 0x61 before exactly the admitted second bytes. The admitted set is the spec's
decision D1 (log entry 12); that 0x11 is refused in `ExtendedPrefix` (R74) is its decision D14 (log entry 21). -/
def Obligations.DecoderAcceptsExactlyTheAdmittedBytes : Prop :=
  ∀ (prefixed : Bool) (b0 b1 b2 : Byte),
    (∃ x, decodeWindow prefixed b0 b1 b2 = .ok x) ↔
      (admittedFirst b0 ∨ (b0 = 0x11 ∧ prefixed = false) ∨ (b0 = 0x61 ∧ admittedSecond b1))

/-- One word of each family, written out from 30_encoding.md R79 and R80 and the worked examples of 40_move.md to
44_control.md. Opcode bytes: the spec's general knowledge (GK4, log entry 12). The last clause, 0x11 after a prefix, is
30_encoding.md R74, the spec's decision D14 (log entry 21); that 0x61 0x09 is not admitted is its decision D25 (log
entry 12). -/
def Obligations.SampleWordsDecode : Prop :=
  decode false [0x50, 0x2A] = .ok (.movX_byte 0x2A, []) ∧
  decode false [0x9F, 0x34, 0x12] = .ok (.movAbs_A 0x1234, []) ∧
  decode false [0x36, 0x34, 0x12] = .ok (.movwHL_word 0x1234, []) ∧
  decode false [0x61, 0x8F] = .ok (.xchA_H, []) ∧
  decode false [0x0C, 0x05] = .ok (.addA_byte 0x05, []) ∧
  decode false [0x61, 0xCB] = .ok (.brAX, []) ∧
  decode false [0x61, 0x09] = .error (.undecoded (.unknownSecondaryOpcode 0x09)) ∧
  decode true [0x11, 0x00] = .error (.undecoded (.unknownOpcode 0x11))

/-! ### The cycle -/

/-- A cycle without a prefix runs the instruction decoded at the pc and then clears the prefix flag (30_encoding.md R71). -/
def Obligations.StepRunsTheDecodedInstruction : Prop :=
  ∀ (s : State) (i : Instr) (n : Nat), s.prefixActive = false → s.peek 0 ≠ 0x11 → decodeAt s = .ok (i, n) →
    step s = clearPrefix (exec i s)

/-- A cycle that starts with 0x11 runs the prefix and, in the same cycle, the instruction after it (30_encoding.md R68,
R71). That the prefix is a constructor of its own is the model's choice (log entry 5). -/
def Obligations.StepRunsThePrefixedInstruction : Prop :=
  ∀ (s : State) (i : Instr) (n : Nat), s.prefixActive = false → s.peek 0 = 0x11 →
    decodeAt (s.consume 1).toExtended = .ok (i, n) →
    exec .esPrefix s = .next (s.consume 1).toExtended ∧ step s = clearPrefix (exec i (s.consume 1).toExtended)

/-- The bytes the fetch unit consumes for a decoded instruction are the instruction's own encoding, each once, in
address order and wrapping at 2^20 (30_encoding.md R63, R64, R66). The decoder peeks what the fetch unit consumes (log
entries 6 and 17). -/
def Obligations.FetchConsumesTheEncoding : Prop :=
  ∀ (s : State) (i : Instr) (n : Nat), decodeAt s = .ok (i, n) →
    n = (encode i).length ∧ (State.fetchBytes n s).1 = encode i ∧ (State.fetchBytes n s).2 = s.consume n

/-- `FetchByte` and `FetchWord` (30_encoding.md R64, R65): the byte at the pc and the pc moved by one modulo 2^20; low byte
first. Nothing else changes. -/
def Obligations.FetchByteAndWordReadAtThePc : Prop :=
  ∀ s : State,
    s.fetchByte.1 = s.memRead s.pc ∧ s.fetchByte.2.pc.toNat = (s.pc.toNat + 1) % 2 ^ 20 ∧
    RegisterFrame [] s s.fetchByte.2 ∧
    s.fetchWord.1.toNat = (s.memRead (s.pc + 1)).toNat * 256 + (s.memRead s.pc).toNat ∧
    s.fetchWord.2.pc.toNat = (s.pc.toNat + 2) % 2 ^ 20 ∧ RegisterFrame [] s s.fetchWord.2

/-- A byte that is not admitted is an error, without and with a prefix before it, in either map (30_encoding.md R72 to
R74; a second 0x11 is such a byte). The admitted set and the double prefix are the spec's decisions D1 and D14 (log
entries 12 and 21). -/
def Obligations.UnadmittedBytesAreUnknownOpcodes : Prop :=
  ∀ s : State, s.prefixActive = false →
    (¬ admittedFirst (s.peek 0) → s.peek 0 ≠ 0x11 → s.peek 0 ≠ 0x61 →
      step s = .fault (.unknownOpcode (s.peek 0) s.pc false)) ∧
    (s.peek 0 = 0x61 → ¬ admittedSecond (s.peek 1) →
      step s = .fault (.unknownSecondaryOpcode 0x61 (s.peek 1) s.pc false)) ∧
    (s.peek 0 = 0x11 → ¬ admittedFirst (s.peek 1) → s.peek 1 ≠ 0x61 →
      step s = .fault (.unknownOpcode (s.peek 1) s.pc true)) ∧
    (s.peek 0 = 0x11 → s.peek 1 = 0x61 → ¬ admittedSecond (s.peek 2) →
      step s = .fault (.unknownSecondaryOpcode 0x61 (s.peek 2) s.pc true))

/-- The prefix never persists: after any cycle that commits, and after any cycle, committed or not, that starts in `Normal`,
the decoder is in `Normal` (30_encoding.md R69). -/
def Obligations.EveryCycleEndsInNormal : Prop :=
  (∀ s t : State, step s = .next t → t.prefixActive = false) ∧
  ∀ s : State, s.prefixActive = false → (singleCycle s).2.prefixActive = false

/-- Every cycle keeps the invariant of 10_state.md R37, from every state that meets it. The memory's canonical form is
the model's own (log entry 4). -/
def Obligations.StepKeepsTheInvariant : Prop :=
  ∀ s t : State, s.Inv → step s = .next t → t.Inv

/-- The state after reset meets the invariant, for every value of the open reset parameters (10_state.md R36, R37). The
memory's canonical form is the model's own (log entry 4). -/
def Obligations.ResetMeetsTheInvariant : Prop :=
  ∀ params : ResetParams, (State.resetWith params).Inv

/-- What reset leaves, for every value of REG_RESET, PSW_RESET and SP_RESET (10_state.md R36). -/
def Obligations.ResetLeavesTheDefaults : Prop :=
  ∀ params : ResetParams,
    (State.resetWith params).pc = 0x00000 ∧ (State.resetWith params).prefixActive = false ∧
    (State.resetWith params).es = 0x0F ∧ (State.resetWith params).cs = 0x00 ∧
    (∀ a, (State.resetWith params).memRead a = 0x00) ∧ (State.resetWith params).sp = params.sp ∧
    (∀ r : Reg, (State.resetWith params).getReg r = params.regs.get r.code) ∧
    (State.resetWith params).psw = params.psw

/-! ### Errors -/

/-- No cycle is refused: the model gives every cycle a meaning, an `Ok` or an error of 60_exceptions.md R114. That the
decoder's and the operand checks' stops are errors is the spec's decision (log entries 12, 19 and 20). -/
def Obligations.StepNeverRefuses : Prop :=
  ∀ (s : State) (r : Refusal), step s ≠ .refused r

/-- OutOfBounds is unreachable (20_memory.md R41, 60_exceptions.md R120). The kind is kept for the spec's list only
(D28, log entry 22). -/
def Obligations.NoAccessIsOutOfBounds : Prop :=
  ∀ (s : State) (a : Nat), step s ≠ .fault (.outOfBounds a)

/-- Errors are precise: every error a cycle raises records the pc at the start of the cycle, the prefix byte's address
if there is one (60_exceptions.md R115, R126). What an error records is the spec's decision D12 (log entry 24). -/
def Obligations.ErrorsNameTheCycleStart : Prop :=
  ∀ (s : State) (f : Fault), s.prefixActive = false → step s = .fault f → f.pc? = some s.pc

/-- Single-cycle execution commits the whole effect or leaves the Machine State as it was (60_exceptions.md R114, R123).
That an error leaves all of it as it was, the pc included, is the spec's decision D2 (log entry 7). -/
def Obligations.SingleCycleCommitsOrRollsBack : Prop :=
  ∀ s : State, (∃ t, step s = .next t ∧ singleCycle s = (.ok, t)) ∨
    ∃ f, step s = .fault f ∧ singleCycle s = (.err f, s)

/-- The operand checks are the only way a handler fails: an instruction completes exactly when it is well-formed
(60_exceptions.md R122, 20_memory.md R46, R47). The prefix is met in `Normal` only (30_encoding.md R74). The two checks
are the spec's decisions D3 and D4 (log entries 19 and 20). -/
def Obligations.ExecCompletesExactlyOnCheckedOperands : Prop :=
  ∀ (i : Instr) (s : State), (i = .esPrefix → s.prefixActive = false) →
    ((∃ t, exec i s = .next t) ↔ i.wellFormed = true)

/-- A short-address operand in 0xE0 to 0xFF raises SaddrOutOfRange with the cycle-start pc, in each of the five
short-address moves (20_memory.md R46, 60_exceptions.md R119). The error is the spec's decision D4 (log entry 20). -/
def Obligations.ShortAddressOutOfRangeIsAnError : Prop :=
  ∀ mov ∈ ([.movA_saddr, .movX_saddr, .movB_saddr, .movC_saddr, .movSaddr_A] : List (Byte → Instr)),
    ∀ (saddr : Byte) (s : State), 0xE0 ≤ saddr.toNat →
      exec (mov saddr) s = .fault (.saddrOutOfRange saddr s.cycleStart)

/-! ### Byte moves -/

/-- MOV r,#byte (40_move.md R84). -/
def Obligations.MovImmediateLoadsTheRegister : Prop :=
  ∀ r op mov, (r, op, mov) ∈ ([(.X, 0x50, .movX_byte), (.A, 0x51, .movA_byte), (.C, 0x52, .movC_byte),
      (.B, 0x53, .movB_byte), (.E, 0x54, .movE_byte), (.D, 0x55, .movD_byte), (.L, 0x56, .movL_byte),
      (.H, 0x57, .movH_byte)] : List (Reg × Byte × (Byte → Instr))) →
    ∀ imm : Byte, encode (mov imm) = [op, imm] ∧
      ∀ s : State, ∃ t, exec (mov imm) s = .next t ∧
        t.getReg r = imm ∧ AdvancesBy 2 s t ∧ RegisterFrame [r] s t

/-- MOV A,r and MOV r,A (40_move.md R85, R86): `dst` takes the value of `src`. Opcode bytes: the spec's general
knowledge (GK4, log entry 12). -/
def Obligations.MovCopiesBetweenAAndTheRegister : Prop :=
  ∀ dst src op mov, (dst, src, op, mov) ∈ ([(.A, .X, 0x60, .movA_X), (.A, .C, 0x62, .movA_C), (.A, .B, 0x63, .movA_B),
      (.A, .E, 0x64, .movA_E), (.A, .D, 0x65, .movA_D), (.A, .L, 0x66, .movA_L), (.A, .H, 0x67, .movA_H),
      (.X, .A, 0x70, .movX_A), (.C, .A, 0x72, .movC_A), (.B, .A, 0x73, .movB_A), (.E, .A, 0x74, .movE_A),
      (.D, .A, 0x75, .movD_A), (.L, .A, 0x76, .movL_A), (.H, .A, 0x77, .movH_A)] : List (Reg × Reg × Byte × Instr)) →
    encode mov = [op] ∧
      ∀ s : State, ∃ t, exec mov s = .next t ∧
        t.getReg dst = s.getReg src ∧ AdvancesBy 1 s t ∧ RegisterFrame [dst] s t

/-- MOV r,saddr with its operand in 0x00 to 0xDF (40_move.md R87): the byte at physical 0xFE20 + saddr, whatever the
prefix flag and ES hold. Which register each opcode loads: GK4, log entry 12. -/
def Obligations.MovFromShortAddressLoadsTheWindow : Prop :=
  ∀ r op mov, (r, op, mov) ∈ ([(.A, 0x8D, .movA_saddr), (.X, 0xD8, .movX_saddr), (.B, 0xE8, .movB_saddr),
      (.C, 0xF8, .movC_saddr)] : List (Reg × Byte × (Byte → Instr))) →
    ∀ saddr : Byte, encode (mov saddr) = [op, saddr] ∧
      ∀ s : State, saddr.toNat ≤ 0xDF → ∃ t, exec (mov saddr) s = .next t ∧
        t.getReg r = s.memRead (BitVec.ofNat 20 (0xFE20 + saddr.toNat)) ∧ AdvancesBy 2 s t ∧ RegisterFrame [r] s t

/-- MOV saddr,A with its operand in 0x00 to 0xDF (40_move.md R88). Opcode bytes: the spec's general knowledge (GK4, log
entry 12). -/
def Obligations.MovToShortAddressStoresInTheWindow : Prop :=
  ∀ saddr : Byte, encode (.movSaddr_A saddr) = [0x9D, saddr] ∧
    ∀ s : State, saddr.toNat ≤ 0xDF → ∃ t, exec (.movSaddr_A saddr) s = .next t ∧ AdvancesBy 2 s t ∧
      saddrAddr saddr = BitVec.ofNat 20 (0xFE20 + saddr.toNat) ∧ StoresOnly (saddrAddr saddr) (s.getReg .A) s t

/-- MOV r,!addr16 (40_move.md R89). Opcode bytes: the spec's general knowledge (GK4, log entry 12). -/
def Obligations.MovFromAbsoluteLoadsTheByte : Prop :=
  ∀ r op mov, (r, op, mov) ∈ ([(.A, 0x8F, .movA_abs), (.X, 0xD9, .movX_abs), (.B, 0xE9, .movB_abs),
      (.C, 0xF9, .movC_abs)] : List (Reg × Byte × (Word → Instr))) →
    ∀ addr : Word, encode (mov addr) = [op, lowByte addr, highByte addr] ∧
      ∀ s : State, ∃ t, exec (mov addr) s = .next t ∧
        t.getReg r = s.memRead (resolve .absolute addr s) ∧ AdvancesBy 3 s t ∧ RegisterFrame [r] s t

/-- MOV !addr16,A (40_move.md R90). Opcode bytes: the spec's general knowledge (GK4, log entry 12). -/
def Obligations.MovToAbsoluteStoresTheByte : Prop :=
  ∀ addr : Word, encode (.movAbs_A addr) = [0x9F, lowByte addr, highByte addr] ∧
    ∀ s : State, ∃ t, exec (.movAbs_A addr) s = .next t ∧ AdvancesBy 3 s t ∧
      StoresOnly (resolve .absolute addr s) (s.getReg .A) s t

/-- MOV A,[DE] and MOV A,[HL] (40_move.md R91). Opcode bytes: the spec's general knowledge (GK4, log entry 12). -/
def Obligations.MovFromIndirectLoadsTheByte : Prop :=
  ∀ p op mov, (p, op, mov) ∈ ([(.DE, 0x89, .movA_atDE), (.HL, 0x8B, .movA_atHL)] : List (Pair × Byte × Instr)) →
    encode mov = [op] ∧
      ∀ s : State, ∃ t, exec mov s = .next t ∧
        t.getReg .A = s.memRead (resolve .indirect (s.getPair p) s) ∧ AdvancesBy 1 s t ∧ RegisterFrame [.A] s t

/-- MOV [DE],A and MOV [HL],A (40_move.md R92). Opcode bytes: the spec's general knowledge (GK4, log entry 12). -/
def Obligations.MovToIndirectStoresTheByte : Prop :=
  ∀ p op mov, (p, op, mov) ∈ ([(.DE, 0x99, .movAtDE_A), (.HL, 0x9B, .movAtHL_A)] : List (Pair × Byte × Instr)) →
    encode mov = [op] ∧
      ∀ s : State, ∃ t, exec mov s = .next t ∧ AdvancesBy 1 s t ∧
        StoresOnly (resolve .indirect (s.getPair p) s) (s.getReg .A) s t

/-- MOV A,[DE+byte] and MOV A,[HL+byte] (40_move.md R93): the sum wraps inside 16 bits before banking. The displacement
is the spec's decision D8 (log entry 16). Opcode bytes: the spec's general knowledge (GK4, log entry 12). -/
def Obligations.MovFromDisplacedLoadsTheByte : Prop :=
  ∀ p op mov, (p, op, mov) ∈ ([(.DE, 0x8A, .movA_atDEdisp), (.HL, 0x8C, .movA_atHLdisp)]
      : List (Pair × Byte × (Byte → Instr))) →
    ∀ disp : Byte, encode (mov disp) = [op, disp] ∧
      ∀ s : State, ∃ t, exec (mov disp) s = .next t ∧
        t.getReg .A = s.memRead (resolve .indirect (BitVec.ofNat 16 ((s.getPair p).toNat + disp.toNat)) s) ∧
        AdvancesBy 2 s t ∧ RegisterFrame [.A] s t

/-- MOV [DE+byte],A and MOV [HL+byte],A (40_move.md R94). The displacement is the spec's decision D8 (log entry 16).
Opcode bytes: the spec's general knowledge (GK4, log entry 12). -/
def Obligations.MovToDisplacedStoresTheByte : Prop :=
  ∀ p op mov, (p, op, mov) ∈ ([(.DE, 0x9A, .movAtDEdisp_A), (.HL, 0x9C, .movAtHLdisp_A)]
      : List (Pair × Byte × (Byte → Instr))) →
    ∀ disp : Byte, encode (mov disp) = [op, disp] ∧
      ∀ s : State, displaced p disp s = BitVec.ofNat 16 ((s.getPair p).toNat + disp.toNat) ∧
        ∃ t, exec (mov disp) s = .next t ∧ AdvancesBy 2 s t ∧
          StoresOnly (resolve .indirect (displaced p disp s) s) (s.getReg .A) s t

/-- MOV A,sfr (40_move.md R95): the PSW, CS or ES whole into A, and UnmappedSfr for every other code. UnmappedSfr is the
spec's decision D3 (log entry 19). Opcode bytes: the spec's general knowledge (GK4, log entry 12). -/
def Obligations.MovFromSfrReadsTheRegister : Prop :=
  ∀ sfr : Byte, encode (.movA_sfr sfr) = [0x8E, sfr] ∧
    ∀ s : State,
      if sfr = 0xFA ∨ sfr = 0xFC ∨ sfr = 0xFD then
        ∃ t, exec (.movA_sfr sfr) s = .next t ∧
          t.getReg .A = (if sfr = 0xFA then s.psw else if sfr = 0xFC then s.cs else s.es) ∧
          AdvancesBy 2 s t ∧ RegisterFrame [.A] s t
      else exec (.movA_sfr sfr) s = .fault (.unmappedSfr sfr s.cycleStart)

/-- MOV sfr,A (40_move.md R96): A whole into the PSW, CS or ES, nothing else changed, and UnmappedSfr for every other
code. UnmappedSfr is the spec's decision D3 (log entry 19). Opcode bytes: the spec's general knowledge (GK4, log entry
12). -/
def Obligations.MovToSfrWritesTheRegister : Prop :=
  ∀ sfr : Byte, encode (.movSfr_A sfr) = [0x9E, sfr] ∧
    ∀ s : State,
      if sfr = 0xFA ∨ sfr = 0xFC ∨ sfr = 0xFD then
        ∃ t, exec (.movSfr_A sfr) s = .next t ∧
          t.psw = (if sfr = 0xFA then s.getReg .A else s.psw) ∧
          t.cs = (if sfr = 0xFC then s.getReg .A else s.cs) ∧
          t.es = (if sfr = 0xFD then s.getReg .A else s.es) ∧
          t.sp = s.sp ∧ t.prefixActive = s.prefixActive ∧ BytesKeptBut [] s t ∧ MemoryKept s t ∧ AdvancesBy 2 s t
      else exec (.movSfr_A sfr) s = .fault (.unmappedSfr sfr s.cycleStart)

/-! ### Register pairs -/

/-- MOVW rp,#word (41_pair.md R97). Opcode bytes: the spec's general knowledge (GK4, log entry 12). -/
def Obligations.MovwImmediateLoadsThePair : Prop :=
  ∀ p op mov, (p, op, mov) ∈ ([(.AX, 0x30, .movwAX_word), (.BC, 0x32, .movwBC_word), (.DE, 0x34, .movwDE_word),
      (.HL, 0x36, .movwHL_word)] : List (Pair × Byte × (Word → Instr))) →
    ∀ imm : Word, encode (mov imm) = [op, lowByte imm, highByte imm] ∧
      ∀ s : State, ∃ t, exec (mov imm) s = .next t ∧
        t.getPair p = imm ∧ t.getReg p.lo = lowByte imm ∧ t.getReg p.hi = highByte imm ∧
        AdvancesBy 3 s t ∧ RegisterFrame [p.hi, p.lo] s t

/-- MOVW AX,rp and MOVW rp,AX (41_pair.md R98, R99): `dst` takes the value of `src`. Opcode bytes: the spec's general
knowledge (GK4, log entry 12). -/
def Obligations.MovwCopiesBetweenAXAndThePair : Prop :=
  ∀ dst src op mov, (dst, src, op, mov) ∈ ([(.AX, .BC, 0x13, .movwAX_BC), (.AX, .DE, 0x15, .movwAX_DE),
      (.AX, .HL, 0x17, .movwAX_HL), (.BC, .AX, 0x12, .movwBC_AX), (.DE, .AX, 0x14, .movwDE_AX),
      (.HL, .AX, 0x16, .movwHL_AX)] : List (Pair × Pair × Byte × Instr)) →
    encode mov = [op] ∧
      ∀ s : State, ∃ t, exec mov s = .next t ∧
        t.getPair dst = s.getPair src ∧ AdvancesBy 1 s t ∧ RegisterFrame [dst.hi, dst.lo] s t

/-- CLRW and ONEW (41_pair.md R100, R101): all 16 bits cleared, or the pair made exactly 1; Z is not set. Opcode bytes:
the spec's general knowledge (GK4, log entry 12). -/
def Obligations.ClrwAndOnewSetThePair : Prop :=
  ∀ p v op set, (p, v, op, set) ∈ ([(.AX, 0x0000, 0xF6, .clrwAX), (.BC, 0x0000, 0xF7, .clrwBC),
      (.AX, 0x0001, 0xE6, .onewAX), (.BC, 0x0001, 0xE7, .onewBC)] : List (Pair × Word × Byte × Instr)) →
    encode set = [op] ∧
      ∀ s : State, ∃ t, exec set s = .next t ∧
        t.getPair p = v ∧ t.getReg p.lo = BitVec.ofNat 8 v.toNat ∧ t.getReg p.hi = 0x00 ∧
        AdvancesBy 1 s t ∧ RegisterFrame [p.hi, p.lo] s t

/-- One storage, two views (10_state.md R22): a byte written shows in its pair at once, low byte at the even index, and a pair
written shows in its two bytes. -/
def Obligations.PairsAndBytesShareStorage : Prop :=
  ∀ (s : State) (p : Pair) (v : Byte) (w : Word),
    (s.getPair p).toNat = (s.getReg p.hi).toNat * 256 + (s.getReg p.lo).toNat ∧
    p.lo.code.val = 2 * p.index.val ∧ p.hi.code.val = 2 * p.index.val + 1 ∧
    lowByte ((s.setReg p.lo v).getPair p) = v ∧ highByte ((s.setReg p.hi v).getPair p) = v ∧
    (s.setPair p w).getReg p.lo = BitVec.ofNat 8 w.toNat ∧
    (s.setPair p w).getReg p.hi = BitVec.ofNat 8 (w.toNat / 256)

/-! ### Exchanges -/

/-- XCH A,X and XCH A,r (42_exchange.md R102, R103). Opcode bytes: the spec's general knowledge (GK4, log entry 12). -/
def Obligations.XchSwapsAWithTheRegister : Prop :=
  ∀ r opcode xch, (r, opcode, xch) ∈ ([(.X, [0x08], .xchA_X), (.C, [0x61, 0x8A], .xchA_C), (.B, [0x61, 0x8B], .xchA_B),
      (.E, [0x61, 0x8C], .xchA_E), (.D, [0x61, 0x8D], .xchA_D), (.L, [0x61, 0x8E], .xchA_L), (.H, [0x61, 0x8F], .xchA_H)]
      : List (Reg × List Byte × Instr)) →
    encode xch = opcode ∧
      ∀ s : State, ∃ t, exec xch s = .next t ∧
        t.getReg .A = s.getReg r ∧ t.getReg r = s.getReg .A ∧ AdvancesBy opcode.length s t ∧ RegisterFrame [.A, r] s t

/-- XCHW AX,rp (42_exchange.md R104). Opcode bytes: the spec's general knowledge (GK4, log entry 12). -/
def Obligations.XchwSwapsAXWithThePair : Prop :=
  ∀ p op xch, (p, op, xch) ∈ ([(.BC, 0x33, .xchwAX_BC), (.DE, 0x35, .xchwAX_DE), (.HL, 0x37, .xchwAX_HL)]
      : List (Pair × Byte × Instr)) →
    encode xch = [op] ∧
      ∀ s : State, ∃ t, exec xch s = .next t ∧
        t.getPair .AX = s.getPair p ∧ t.getPair p = s.getPair .AX ∧ AdvancesBy 1 s t ∧
        RegisterFrame [.A, .X, p.hi, p.lo] s t

/-! ### Arithmetic -/

/-- The flag algorithm (43_arith.md R105): the truncated sum, CY from bit 8, AC out of bit 3, Z, and every other PSW bit
and every other field kept. Bits 0, 4 and 6 for CY, AC and Z: the spec's decision D10 (log entry 14). -/
def Obligations.AddFlagsFollowsTheSum : Prop :=
  ∀ (a b : Byte) (s : State),
    (addFlags a b s).1.toNat = (a.toNat + b.toNat) % 2 ^ 8 ∧ FlagsOfAdd a b s (addFlags a b s).2 ∧
    (addFlags a b s).2.pc = s.pc ∧ BytesKeptBut [] s (addFlags a b s).2 ∧ SegmentsKept s (addFlags a b s).2 ∧
    MemoryKept s (addFlags a b s).2

/-- ADD A,#byte (43_arith.md R106). Bit positions of the flags: D10, log entry 14. -/
def Obligations.AddImmediateAddsToA : Prop :=
  ∀ imm : Byte, encode (.addA_byte imm) = [0x0C, imm] ∧
    ∀ s : State, ∃ t, exec (.addA_byte imm) s = .next t ∧ AddsInto .A imm s t ∧ AdvancesBy 2 s t

/-- ADD A,r (43_arith.md R107). Bit positions of the flags: D10, log entry 14. Opcode bytes: the spec's general
knowledge (GK4, log entry 12). -/
def Obligations.AddRegisterAddsToA : Prop :=
  ∀ r op add, (r, op, add) ∈ ([(.X, 0x08, .addA_X), (.C, 0x0A, .addA_C), (.B, 0x0B, .addA_B), (.E, 0x0C, .addA_E),
      (.D, 0x0D, .addA_D), (.L, 0x0E, .addA_L), (.H, 0x0F, .addA_H)] : List (Reg × Byte × Instr)) →
    encode add = [0x61, op] ∧
      ∀ s : State, ∃ t, exec add s = .next t ∧ AddsInto .A (s.getReg r) s t ∧ AdvancesBy 2 s t

/-- ADD r,A, with ADD A,A among them (43_arith.md R108). Bit positions of the flags: D10, log entry 14. Opcode bytes:
the spec's general knowledge (GK4, log entry 12). -/
def Obligations.AddAccumulatorAddsToTheRegister : Prop :=
  ∀ r op add, (r, op, add) ∈ ([(.X, 0x00, .addX_A), (.A, 0x01, .addA_A), (.C, 0x02, .addC_A), (.B, 0x03, .addB_A),
      (.E, 0x04, .addE_A), (.D, 0x05, .addD_A), (.L, 0x06, .addL_A), (.H, 0x07, .addH_A)]
      : List (Reg × Byte × Instr)) →
    encode add = [0x61, op] ∧
      ∀ s : State, ∃ t, exec add s = .next t ∧ AddsInto r (s.getReg .A) s t ∧ AdvancesBy 2 s t

/-! ### Control -/

/-- BR AX (44_control.md R110): the pc becomes AX zero-extended, with no segment, and nothing else changes. Opcode
bytes: the spec's general knowledge (GK4, log entry 12). -/
def Obligations.BranchSetsThePcToAX : Prop :=
  encode .brAX = [0x61, 0xCB] ∧
    ∀ s : State, ∃ t, exec .brAX s = .next t ∧ t.pc.toNat = (s.getPair .AX).toNat ∧ RegisterFrame [] s t

/-- NOP (44_control.md R111). Opcode bytes: the spec's general knowledge (GK4, log entry 12). -/
def Obligations.NopOnlyAdvancesThePc : Prop :=
  encode .nop = [0x00] ∧
    ∀ s : State, ∃ t, exec .nop s = .next t ∧ AdvancesBy 1 s t ∧ RegisterFrame [] s t

/-- The ES prefix (30_encoding.md R67, R68, R74): in `Normal` it is consumed, sets the prefix flag and writes nothing
else; it never stacks. That the prefix is a constructor of its own is the model's choice (log entry 5); the double
prefix is the spec's decision D14 (log entry 21). -/
def Obligations.PrefixEntersExtendedPrefix : Prop :=
  encode .esPrefix = [0x11] ∧
    ∀ s : State,
      if s.prefixActive = false then
        ∃ t, exec .esPrefix s = .next t ∧ t.prefixActive = true ∧ AdvancesBy 1 s t ∧ BytesKeptBut [] s t ∧
          t.psw = s.psw ∧ t.sp = s.sp ∧ t.es = s.es ∧ t.cs = s.cs ∧ MemoryKept s t
      else exec .esPrefix s = .fault (.unknownOpcode 0x11 s.cycleStart true)

/-! ### Addresses and memory -/

/-- Absolute and Indirect resolution as numbers (20_memory.md R42, R43): with the prefix, the bank is the low four bits of ES
(10_state.md R31); without it, bank 0 for Absolute and bank 15 for Indirect. -/
def Obligations.ResolveForThePhysicalAddress : Prop :=
  ∀ (a16 : Word) (s : State),
    (resolve .absolute a16 s).toNat =
      (if s.prefixActive then s.es.toNat % 16 * 0x10000 + a16.toNat else a16.toNat) ∧
    (resolve .indirect a16 s).toNat =
      (if s.prefixActive then s.es.toNat % 16 * 0x10000 + a16.toNat else 0xF0000 + a16.toNat)

/-- Indirect+offset (20_memory.md R44): an unsigned displacement and a sum that wraps in 16 bits. Short addresses (R45):
0xFE20 + s, between 0x0FE20 and 0x0FEFF on the operand's domain. The unsigned displacement and its wrap are the spec's
decision D8 (log entry 16). -/
def Obligations.DisplacedAndShortAddresses : Prop :=
  (∀ (p : Pair) (disp : Byte) (s : State),
    (displaced p disp s).toNat = ((s.getPair p).toNat + disp.toNat) % 2 ^ 16) ∧
  ∀ saddr : Byte, saddr.toNat ≤ 0xDF →
    (saddrAddr saddr).toNat = 0xFE20 + saddr.toNat ∧ (saddrAddr saddr).toNat ≤ 0xFEFF

/-- Memory (20_memory.md R40): a byte written is the byte read next, at any address, and no other byte changes; the fetch unit
sees it as well (R57). -/
def Obligations.WrittenByteIsReadBack : Prop :=
  ∀ (s : State) (a b : Addr) (v : Byte) (k : Nat),
    (s.memWrite a v).memRead a = v ∧ (b ≠ a → (s.memWrite a v).memRead b = s.memRead b) ∧
    (s.pc + BitVec.ofNat 20 k = a → (s.memWrite a v).peek k = v) ∧
    (s.pc + BitVec.ofNat 20 k ≠ a → (s.memWrite a v).peek k = s.peek k)

/-- A prefix before an instruction without an Absolute, Indirect or Indirect+offset operand changes nothing the
instruction does (30_encoding.md R75, 20_memory.md R48). The spec's decision D11 (log entry 18). -/
def Obligations.PrefixMattersOnlyToMemoryOperands : Prop :=
  ∀ (i : Instr) (s t : State), ¬ consultsPrefix i → i ≠ .esPrefix → exec i s = .next t →
    exec i s.toExtended = .next { t with prefixActive := true }

/-! ### Whole-machine rules -/

/-- An instruction that is not a control transfer leaves the pc at its start plus its encoded length, modulo 2^20; BR AX is the
only one that writes it otherwise (10_state.md R25, 44_control.md R112). -/
def Obligations.PcAdvancesByTheEncodedLength : Prop :=
  ∀ (i : Instr) (s t : State), exec i s = .next t →
    if i = .brAX then t.pc.toNat = (s.getPair .AX).toNat
    else t.pc.toNat = (s.pc.toNat + (encode i).length) % 2 ^ 20

/-- Nothing touches the general registers but what the table of 10_state.md R23 lists. -/
def Obligations.RegistersChangeOnlyWhereListed : Prop :=
  ∀ (i : Instr) (s t : State), exec i s = .next t → BytesKeptBut (writesOf i) s t

/-- The six stores of A are the only instructions that change memory, and each changes one byte, the one its addressing mode
resolves (10_state.md R23, 20_memory.md R52). -/
def Obligations.OnlyStoresChangeMemory : Prop :=
  ∀ (i : Instr) (s t : State), exec i s = .next t →
    (storeTarget i s = none → MemoryKept s t) ∧
    ∀ a, storeTarget i s = some a → t.memRead a = s.getReg .A ∧ MemoryKeptBut a s t

/-- Only the ADD family and MOV sfr,A with code 0xFA write the PSW, and the ADD family writes only CY, AC and Z
(10_state.md R28; 43_arith.md R105). Bit positions: D10, log entry 14. -/
def Obligations.PswChangesOnlyByAddOrSfrWrite : Prop :=
  ∀ (i : Instr) (s t : State), exec i s = .next t → i ≠ .movSfr_A 0xFA →
    (¬ isAdd i → t.psw = s.psw) ∧ PswBitsKeptBut [0, 4, 6] s t

/-- No instruction reads a flag to decide anything, and IE, ISP0, ISP1 and the reserved bits change nothing: with any
other PSW, every instruction but MOV A,sfr with code 0xFA has the same effect outside the PSW and raises the same error
(10_state.md R28 to R30). The reserved bits as storage are the spec's decision D9 (log entry 15). -/
def Obligations.FlagsDecideNothing : Prop :=
  ∀ (i : Instr) (s : State) (v : Byte), i ≠ .movA_sfr 0xFA →
    match exec i s with
    | .next t => ∃ w, exec i (s.setPsw v) = .next (t.setPsw w)
    | .fault f => exec i (s.setPsw v) = .fault f
    | .refused r => exec i (s.setPsw v) = .refused r

/-- No instruction reads or writes SP (10_state.md R33). -/
def Obligations.StackPointerIsNeverUsed : Prop :=
  ∀ (i : Instr) (s t : State) (v : Word), exec i s = .next t →
    t.sp = s.sp ∧ exec i { s with sp := v } = .next { t with sp := v }

/-- CS is only stored and read back: MOV sfr,A with code 0xFC is the only writer, and MOV A,sfr with code 0xFC the only reader
(10_state.md R32). -/
def Obligations.CsIsOnlyStored : Prop :=
  ∀ (i : Instr) (s t : State) (v : Byte), exec i s = .next t →
    (i ≠ .movSfr_A 0xFC → t.cs = s.cs) ∧
    (i ≠ .movA_sfr 0xFC → i ≠ .movSfr_A 0xFC → exec i (s.setCs v) = .next (t.setCs v))

/-- ES has one writer, MOV sfr,A with code 0xFD, and matters only to MOV A,sfr with code 0xFD and to address resolution under the
prefix (10_state.md R31). -/
def Obligations.EsMattersOnlyUnderThePrefix : Prop :=
  ∀ (i : Instr) (s t : State) (v : Byte), exec i s = .next t →
    (i ≠ .movSfr_A 0xFD → t.es = s.es) ∧
    (i ≠ .movA_sfr 0xFD → i ≠ .movSfr_A 0xFD → (consultsPrefix i → s.prefixActive = false) →
      exec i (s.setEs v) = .next (t.setEs v))

/-- A store by one cycle is seen by the fetch of the next: after a cycle whose instruction stored A at the address the
next cycle's byte `k` lies at, that byte is A (20_memory.md R57, 70_reset_and_hazards.md R140). The spec's decision D16
(log entry 28). -/
def Obligations.StoreIsSeenByTheNextFetch : Prop :=
  ∀ (s t : State) (i : Instr) (n k : Nat) (a : Addr), s.prefixActive = false → s.peek 0 ≠ 0x11 →
    decodeAt s = .ok (i, n) → storeTarget i s = some a → step s = .next t → t.pc + BitVec.ofNat 20 k = a →
    t.peek k = s.getReg .A

/-! ### The host interface -/

/-- Pre-load (60_exceptions.md R132): `mem[o+i] <- b[i]` and no other byte or register, refused where it would pass
0xFFFFF. The refusal is the spec's decision D20 (log entry 26); the canonical form of memory, which it keeps, is the
model's own (log entry 4). -/
def Obligations.PreloadWritesExactlyItsRange : Prop :=
  ∀ (offset : Nat) (bytes : List Byte) (s : State),
    if offset + bytes.length ≤ 2 ^ 20 then
      ∃ t, preload offset bytes s = .next t ∧ t.pc = s.pc ∧ BytesKeptBut [] s t ∧ t.psw = s.psw ∧ SegmentsKept s t ∧
        (s.mem.wf → t.mem.wf) ∧
        ∀ a : Addr, t.memRead a =
          (if offset ≤ a.toNat ∧ a.toNat < offset + bytes.length then bytes.getD (a.toNat - offset) 0
          else s.memRead a)
    else preload offset bytes s = .refused (.preloadPastEnd offset bytes.length)

/-- Introspection gives the pc, SP, PSW, ES, CS, the eight byte registers and the four pairs (60_exceptions.md R132). -/
def Obligations.IntrospectionShowsTheRegisters : Prop :=
  ∀ s : State,
    (introspect s).pc = s.pc ∧ (introspect s).sp = s.sp ∧ (introspect s).psw = s.psw ∧ (introspect s).es = s.es ∧
    (introspect s).cs = s.cs ∧ (∀ r : Reg, (introspect s).bytes.get r.code = s.getReg r) ∧
    ∀ p : Pair, (introspect s).pairs.get p.index = s.getPair p
end

