-- ==== Sys2Proof/Laws/Memory.lean ====
section
/-! SUPPORT. The laws of memory: a read after a write (for every list, canonical or not), and the canonical form. -/

namespace Sys2Proof.Machine

theorem Memory.read_erase_same (m : Memory) (a : Nat) : (m.erase a).read a = Memory.unlisted := by
  induction m with
  | nil => rfl
  | cons cell rest ih =>
    obtain ⟨key, byte⟩ := cell
    by_cases h : key = a
    · simpa [Memory.erase, h] using ih
    · simpa [Memory.erase, Memory.read, h] using ih

theorem Memory.read_erase_other (m : Memory) {a b : Nat} (hne : b ≠ a) : (m.erase a).read b = m.read b := by
  induction m with
  | nil => rfl
  | cons cell rest ih =>
    obtain ⟨key, byte⟩ := cell
    by_cases h : key = a
    · subst h
      simpa [Memory.erase, Memory.read, hne.symm] using ih
    · by_cases hb : key = b
      · simp [Memory.erase, Memory.read, hb, hne]
      · simpa [Memory.erase, Memory.read, h, hb] using ih

theorem Memory.read_insert_same (m : Memory) (a : Nat) (v : Byte) (hm : ∀ c ∈ m, c.1 ≠ a) :
    (m.insert a v).read a = v := by
  induction m with
  | nil => simp [Memory.insert, Memory.read]
  | cons cell rest ih =>
    obtain ⟨key, byte⟩ := cell
    have hk : key ≠ a := hm (key, byte) (by simp)
    have hr := ih (fun c hc => hm c (by simp [hc]))
    unfold Memory.insert
    split
    · simp [Memory.read]
    · simp [Memory.read, hk, hr]

theorem Memory.read_insert_other (m : Memory) {a b : Nat} (v : Byte) (hne : b ≠ a) :
    (m.insert a v).read b = m.read b := by
  induction m with
  | nil => simp [Memory.insert, Memory.read, hne.symm]
  | cons cell rest ih =>
    obtain ⟨key, byte⟩ := cell
    unfold Memory.insert
    split
    · simp [Memory.read, hne.symm]
    · simp [Memory.read, ih]

theorem Memory.erase_key_ne (m : Memory) (a : Nat) : ∀ c ∈ m.erase a, c.1 ≠ a := by
  intro c hc
  simpa using (List.mem_filter.mp hc).2

@[simp] theorem Memory.read_write_same (m : Memory) (a : Nat) (v : Byte) : (m.write a v).read a = v := by
  unfold Memory.write
  split
  · next h => rw [Memory.read_erase_same, h]
  · exact Memory.read_insert_same _ _ _ (Memory.erase_key_ne m a)

theorem Memory.read_write_other (m : Memory) {a b : Nat} (v : Byte) (hne : b ≠ a) :
    (m.write a v).read b = m.read b := by
  unfold Memory.write
  split
  · exact Memory.read_erase_other m hne
  · rw [Memory.read_insert_other _ v hne, Memory.read_erase_other m hne]

/-- A read after a write, at any two addresses: 20_memory.md R40. -/
theorem Memory.read_write (m : Memory) (a b : Nat) (v : Byte) :
    (m.write a v).read b = if b = a then v else m.read b := by
  split
  · next h => rw [h, Memory.read_write_same]
  · next h => exact Memory.read_write_other m v h

theorem Memory.mem_insert (m : Memory) (a : Nat) (v : Byte) (c : Host.Cell) :
    c ∈ m.insert a v ↔ c = (a, v) ∨ c ∈ m := by
  induction m with
  | nil => simp [Memory.insert]
  | cons cell rest ih =>
    obtain ⟨key, byte⟩ := cell
    unfold Memory.insert
    split
    · simp
    · simp [ih, or_left_comm]

theorem Memory.wf_nil : Memory.wf [] := by simp [Memory.wf]

theorem Memory.wf_erase {m : Memory} (a : Nat) (h : m.wf) : (m.erase a).wf :=
  ⟨h.1.filter _, fun c hc => h.2 c (List.mem_filter.mp hc).1⟩

theorem Memory.insert_rises {m : Memory} {a : Nat} {v : Byte} (hm : m.Pairwise (fun c d => c.1 < d.1))
    (hne : ∀ c ∈ m, c.1 ≠ a) : (m.insert a v).Pairwise (fun c d => c.1 < d.1) := by
  induction m with
  | nil => simp [Memory.insert]
  | cons cell rest ih =>
    obtain ⟨key, byte⟩ := cell
    obtain ⟨hkey, hrest⟩ := List.pairwise_cons.mp hm
    have hk : key ≠ a := hne (key, byte) (by simp)
    unfold Memory.insert
    split
    · next hlt =>
      refine List.pairwise_cons.mpr ⟨fun c hc => ?_, hm⟩
      rcases List.mem_cons.mp hc with rfl | hc
      · exact hlt
      · exact lt_trans hlt (hkey c hc)
    · next hge =>
      refine List.pairwise_cons.mpr ⟨fun c hc => ?_, ih hrest (fun c hc => hne c (by simp [hc]))⟩
      rcases (Memory.mem_insert rest a v c).mp hc with rfl | hc
      · exact lt_of_le_of_ne (not_lt.mp hge) hk
      · exact hkey c hc

/-- A write keeps the canonical form. -/
theorem Memory.wf_write {m : Memory} {a : Nat} (v : Byte) (ha : a < memSize) (h : m.wf) : (m.write a v).wf := by
  have he := Memory.wf_erase a h
  unfold Memory.write
  split
  · exact he
  · next hv =>
    refine ⟨Memory.insert_rises he.1 (Memory.erase_key_ne m a), fun c hc => ?_⟩
    rcases (Memory.mem_insert _ a v c).mp hc with rfl | hc
    · exact ⟨ha, hv⟩
    · exact he.2 c hc

/-- Reading an address below every listed one. -/
theorem Memory.read_of_lt {m : Memory} {a : Nat} (h : ∀ c ∈ m, a < c.1) : m.read a = Memory.unlisted := by
  induction m with
  | nil => rfl
  | cons cell rest ih =>
    obtain ⟨key, byte⟩ := cell
    have hk : key ≠ a := (h (key, byte) (by simp)).ne'
    simpa [Memory.read, hk] using ih (fun c hc => h c (by simp [hc]))

theorem Memory.wf_tail {cell : Host.Cell} {rest : Memory} (h : Memory.wf (cell :: rest)) : Memory.wf rest :=
  ⟨(List.pairwise_cons.mp h.1).2, fun c hc => h.2 c (by simp [hc])⟩

/-- Two canonical memories that read alike are the same data. -/
theorem Memory.eq_of_read_eq {m n : Memory} (hm : m.wf) (hn : n.wf) (h : ∀ a, m.read a = n.read a) : m = n := by
  induction m generalizing n with
  | nil =>
    cases n with
    | nil => rfl
    | cons cell rest =>
      have := h cell.1
      simp [Memory.read] at this
      exact absurd this.symm (hn.2 cell (by simp)).2
  | cons cell rest ih =>
    obtain ⟨key, byte⟩ := cell
    have hlow : ∀ c ∈ rest, key < c.1 := (List.pairwise_cons.mp hm.1).1
    have hb : byte ≠ Memory.unlisted := (hm.2 (key, byte) (by simp)).2
    cases n with
    | nil =>
      have := h key
      simp [Memory.read] at this
      exact absurd this hb
    | cons cell' rest' =>
      obtain ⟨key', byte'⟩ := cell'
      have hlow' : ∀ c ∈ rest', key' < c.1 := (List.pairwise_cons.mp hn.1).1
      have hb' : byte' ≠ Memory.unlisted := (hn.2 (key', byte') (by simp)).2
      have hkey : key = key' := by
        rcases lt_trichotomy key key' with hlt | heq | hgt
        · have hr : Memory.read ((key', byte') :: rest') key = Memory.unlisted :=
            Memory.read_of_lt (by
              intro c hc
              rcases List.mem_cons.mp hc with rfl | hc
              · exact hlt
              · exact lt_trans hlt (hlow' c hc))
          have := h key
          rw [hr] at this
          simp [Memory.read] at this
          exact absurd this hb
        · exact heq
        · have hr : Memory.read ((key, byte) :: rest) key' = Memory.unlisted :=
            Memory.read_of_lt (by
              intro c hc
              rcases List.mem_cons.mp hc with rfl | hc
              · exact hgt
              · exact lt_trans hgt (hlow c hc))
          have := h key'
          rw [hr] at this
          simp [Memory.read] at this
          exact absurd this.symm hb'
      subst hkey
      have hbyte : byte = byte' := by simpa [Memory.read] using h key
      have hrest : rest = rest' := by
        refine ih (Memory.wf_tail hm) (Memory.wf_tail hn) (fun a => ?_)
        by_cases ha : key = a
        · subst ha
          rw [Memory.read_of_lt hlow, Memory.read_of_lt hlow']
        · simpa [Memory.read, ha] using h a
      rw [hbyte, hrest]

end Sys2Proof.Machine
end

