-- ==== Sys2Proof/Laws/State.lean ====
section
/-! SUPPORT. One lemma per field per update of the state, and how the register and memory reads see each update. No later
proof unfolds a record update. -/

namespace Sys2Proof.Machine

/-! ### What fetching does -/

theorem State.fetchBytes_state (n : Nat) (s : State) :
    (State.fetchBytes n s).2 = { s with pc := s.pc + BitVec.ofNat 20 n } := by
  induction n generalizing s with
  | zero => simp [State.fetchBytes]
  | succ n ih =>
    simp only [State.fetchBytes, ih, State.fetchByte]
    have : s.pc + 1 + BitVec.ofNat 20 n = s.pc + BitVec.ofNat 20 (n + 1) := by
      rw [Nat.add_comm n 1, BitVec.ofNat_add, ← BitVec.add_assoc]
      rfl
    rw [this]

/-- Consuming bytes moves the pc and nothing else: 10_state.md R25. -/
theorem State.consume_eq (s : State) (n : Nat) : s.consume n = { s with pc := s.pc + BitVec.ofNat 20 n } :=
  State.fetchBytes_state n s

/-! ### Registers -/

theorem Reg.code_inj {q r : Reg} : q.code = r.code ↔ q = r := by
  cases q <;> cases r <;> decide

@[simp] theorem State.setReg_getReg (s : State) (r : Reg) (v : Byte) (q : Reg) :
    (s.setReg r v).getReg q = if q = r then v else s.getReg q := by
  have h : (r.code : Nat) = q.code ↔ q = r := by
    rw [Fin.val_inj, eq_comm, Reg.code_inj]
  simp [State.getReg, State.setReg, Vector.get_eq_getElem, Vector.getElem_set, h]

@[simp] theorem wordOf_lowByte_highByte (w : Word) : wordOf (lowByte w) (highByte w) = w := by
  simp only [wordOf, lowByte, highByte]
  ext i hi
  simp only [BitVec.getElem_append, BitVec.getElem_extractLsb', Nat.zero_add]
  split
  · exact (BitVec.getElem_eq_testBit_toNat w i hi).symm ▸ by simp [BitVec.getLsbD]
  · have : 8 + (i - 8) = i := by omega
    rw [this]
    exact (BitVec.getElem_eq_testBit_toNat w i hi).symm ▸ by simp [BitVec.getLsbD]

@[simp] theorem lowByte_wordOf (lo hi : Byte) : lowByte (wordOf lo hi) = lo := by
  ext i h
  have := BitVec.getLsbD_append (x := hi) (y := lo) (i := i)
  simpa [wordOf, lowByte, h, BitVec.getLsbD_eq_getElem] using this

@[simp] theorem highByte_wordOf (lo hi : Byte) : highByte (wordOf lo hi) = hi := by
  ext i h
  have := BitVec.getLsbD_append (x := hi) (y := lo) (i := 8 + i)
  simpa [wordOf, highByte, h, BitVec.getLsbD_eq_getElem] using this

@[simp] theorem State.setPair_getReg (s : State) (p : Pair) (v : Word) (q : Reg) :
    (s.setPair p v).getReg q = if q = p.hi then highByte v else if q = p.lo then lowByte v else s.getReg q := by
  simp [State.setPair]

theorem Pair.hi_ne_lo (p q : Pair) : p.hi ≠ q.lo := by
  cases p <;> cases q <;> decide

/-- A pair reads back what was written to it, and no other pair changes: 10_state.md R22. -/
@[simp] theorem State.setPair_getPair (s : State) (p : Pair) (v : Word) (q : Pair) :
    (s.setPair p v).getPair q = if q = p then v else s.getPair q := by
  have hlo : q.lo = p.lo ↔ q = p := by cases p <;> cases q <;> decide
  have hhi : q.hi = p.hi ↔ q = p := by cases p <;> cases q <;> decide
  simp only [State.getPair, State.setPair_getReg, (Pair.hi_ne_lo p q).symm, Pair.hi_ne_lo q p, hlo, hhi, if_false]
  split <;> simp

/-! ### setReg -/

@[simp] theorem State.setReg_pc (s : State) (r : Reg) (v : Byte) : (s.setReg r v).pc = s.pc := rfl

@[simp] theorem State.setReg_sp (s : State) (r : Reg) (v : Byte) : (s.setReg r v).sp = s.sp := rfl

@[simp] theorem State.setReg_psw (s : State) (r : Reg) (v : Byte) : (s.setReg r v).psw = s.psw := rfl

@[simp] theorem State.setReg_es (s : State) (r : Reg) (v : Byte) : (s.setReg r v).es = s.es := rfl

@[simp] theorem State.setReg_cs (s : State) (r : Reg) (v : Byte) : (s.setReg r v).cs = s.cs := rfl

@[simp] theorem State.setReg_mem (s : State) (r : Reg) (v : Byte) : (s.setReg r v).mem = s.mem := rfl

@[simp] theorem State.setReg_prefixActive (s : State) (r : Reg) (v : Byte) : (s.setReg r v).prefixActive = s.prefixActive := rfl

@[simp] theorem State.setReg_memRead (s : State) (r : Reg) (v : Byte) (b : Addr) : (s.setReg r v).memRead b = s.memRead b := rfl

/-! ### setPair -/

@[simp] theorem State.setPair_pc (s : State) (p : Pair) (v : Word) : (s.setPair p v).pc = s.pc := rfl

@[simp] theorem State.setPair_sp (s : State) (p : Pair) (v : Word) : (s.setPair p v).sp = s.sp := rfl

@[simp] theorem State.setPair_psw (s : State) (p : Pair) (v : Word) : (s.setPair p v).psw = s.psw := rfl

@[simp] theorem State.setPair_es (s : State) (p : Pair) (v : Word) : (s.setPair p v).es = s.es := rfl

@[simp] theorem State.setPair_cs (s : State) (p : Pair) (v : Word) : (s.setPair p v).cs = s.cs := rfl

@[simp] theorem State.setPair_mem (s : State) (p : Pair) (v : Word) : (s.setPair p v).mem = s.mem := rfl

@[simp] theorem State.setPair_prefixActive (s : State) (p : Pair) (v : Word) : (s.setPair p v).prefixActive = s.prefixActive := rfl

@[simp] theorem State.setPair_memRead (s : State) (p : Pair) (v : Word) (b : Addr) : (s.setPair p v).memRead b = s.memRead b := rfl

/-! ### memWrite -/

@[simp] theorem State.memWrite_pc (s : State) (a : Addr) (v : Byte) : (s.memWrite a v).pc = s.pc := rfl

@[simp] theorem State.memWrite_sp (s : State) (a : Addr) (v : Byte) : (s.memWrite a v).sp = s.sp := rfl

@[simp] theorem State.memWrite_psw (s : State) (a : Addr) (v : Byte) : (s.memWrite a v).psw = s.psw := rfl

@[simp] theorem State.memWrite_es (s : State) (a : Addr) (v : Byte) : (s.memWrite a v).es = s.es := rfl

@[simp] theorem State.memWrite_cs (s : State) (a : Addr) (v : Byte) : (s.memWrite a v).cs = s.cs := rfl

@[simp] theorem State.memWrite_regs (s : State) (a : Addr) (v : Byte) : (s.memWrite a v).regs = s.regs := rfl

@[simp] theorem State.memWrite_prefixActive (s : State) (a : Addr) (v : Byte) : (s.memWrite a v).prefixActive = s.prefixActive := rfl

@[simp] theorem State.memWrite_getReg (s : State) (a : Addr) (v : Byte) (q : Reg) : (s.memWrite a v).getReg q = s.getReg q := rfl

@[simp] theorem State.memWrite_getPair (s : State) (a : Addr) (v : Byte) (q : Pair) : (s.memWrite a v).getPair q = s.getPair q := rfl

/-- The next read of a byte written returns it, and no other byte changes: 20_memory.md R40. -/
@[simp] theorem State.memWrite_memRead (s : State) (a : Addr) (v : Byte) (b : Addr) :
    (s.memWrite a v).memRead b = if b = a then v else s.memRead b := by
  simp [State.memRead, State.memWrite, Memory.read_write, BitVec.toNat_inj]

theorem State.memWrite_wf {s : State} (a : Addr) (v : Byte) (h : s.mem.wf) : (s.memWrite a v).mem.wf :=
  Memory.wf_write v a.isLt h

/-! ### setPsw -/

@[simp] theorem State.setPsw_pc (s : State) (v : Byte) : (s.setPsw v).pc = s.pc := rfl

@[simp] theorem State.setPsw_sp (s : State) (v : Byte) : (s.setPsw v).sp = s.sp := rfl

@[simp] theorem State.setPsw_psw (s : State) (v : Byte) : (s.setPsw v).psw = v := rfl

@[simp] theorem State.setPsw_es (s : State) (v : Byte) : (s.setPsw v).es = s.es := rfl

@[simp] theorem State.setPsw_cs (s : State) (v : Byte) : (s.setPsw v).cs = s.cs := rfl

@[simp] theorem State.setPsw_regs (s : State) (v : Byte) : (s.setPsw v).regs = s.regs := rfl

@[simp] theorem State.setPsw_mem (s : State) (v : Byte) : (s.setPsw v).mem = s.mem := rfl

@[simp] theorem State.setPsw_prefixActive (s : State) (v : Byte) : (s.setPsw v).prefixActive = s.prefixActive := rfl

@[simp] theorem State.setPsw_getReg (s : State) (v : Byte) (q : Reg) : (s.setPsw v).getReg q = s.getReg q := rfl

@[simp] theorem State.setPsw_getPair (s : State) (v : Byte) (q : Pair) : (s.setPsw v).getPair q = s.getPair q := rfl

@[simp] theorem State.setPsw_memRead (s : State) (v : Byte) (b : Addr) : (s.setPsw v).memRead b = s.memRead b := rfl

/-! ### setEs -/

@[simp] theorem State.setEs_pc (s : State) (v : Byte) : (s.setEs v).pc = s.pc := rfl

@[simp] theorem State.setEs_sp (s : State) (v : Byte) : (s.setEs v).sp = s.sp := rfl

@[simp] theorem State.setEs_psw (s : State) (v : Byte) : (s.setEs v).psw = s.psw := rfl

@[simp] theorem State.setEs_es (s : State) (v : Byte) : (s.setEs v).es = v := rfl

@[simp] theorem State.setEs_cs (s : State) (v : Byte) : (s.setEs v).cs = s.cs := rfl

@[simp] theorem State.setEs_regs (s : State) (v : Byte) : (s.setEs v).regs = s.regs := rfl

@[simp] theorem State.setEs_mem (s : State) (v : Byte) : (s.setEs v).mem = s.mem := rfl

@[simp] theorem State.setEs_prefixActive (s : State) (v : Byte) : (s.setEs v).prefixActive = s.prefixActive := rfl

@[simp] theorem State.setEs_getReg (s : State) (v : Byte) (q : Reg) : (s.setEs v).getReg q = s.getReg q := rfl

@[simp] theorem State.setEs_getPair (s : State) (v : Byte) (q : Pair) : (s.setEs v).getPair q = s.getPair q := rfl

@[simp] theorem State.setEs_memRead (s : State) (v : Byte) (b : Addr) : (s.setEs v).memRead b = s.memRead b := rfl

/-! ### setCs -/

@[simp] theorem State.setCs_pc (s : State) (v : Byte) : (s.setCs v).pc = s.pc := rfl

@[simp] theorem State.setCs_sp (s : State) (v : Byte) : (s.setCs v).sp = s.sp := rfl

@[simp] theorem State.setCs_psw (s : State) (v : Byte) : (s.setCs v).psw = s.psw := rfl

@[simp] theorem State.setCs_es (s : State) (v : Byte) : (s.setCs v).es = s.es := rfl

@[simp] theorem State.setCs_cs (s : State) (v : Byte) : (s.setCs v).cs = v := rfl

@[simp] theorem State.setCs_regs (s : State) (v : Byte) : (s.setCs v).regs = s.regs := rfl

@[simp] theorem State.setCs_mem (s : State) (v : Byte) : (s.setCs v).mem = s.mem := rfl

@[simp] theorem State.setCs_prefixActive (s : State) (v : Byte) : (s.setCs v).prefixActive = s.prefixActive := rfl

@[simp] theorem State.setCs_getReg (s : State) (v : Byte) (q : Reg) : (s.setCs v).getReg q = s.getReg q := rfl

@[simp] theorem State.setCs_getPair (s : State) (v : Byte) (q : Pair) : (s.setCs v).getPair q = s.getPair q := rfl

@[simp] theorem State.setCs_memRead (s : State) (v : Byte) (b : Addr) : (s.setCs v).memRead b = s.memRead b := rfl

/-! ### jump -/

@[simp] theorem State.jump_pc (s : State) (target : Addr) : (s.jump target).pc = target := rfl

@[simp] theorem State.jump_sp (s : State) (target : Addr) : (s.jump target).sp = s.sp := rfl

@[simp] theorem State.jump_psw (s : State) (target : Addr) : (s.jump target).psw = s.psw := rfl

@[simp] theorem State.jump_es (s : State) (target : Addr) : (s.jump target).es = s.es := rfl

@[simp] theorem State.jump_cs (s : State) (target : Addr) : (s.jump target).cs = s.cs := rfl

@[simp] theorem State.jump_regs (s : State) (target : Addr) : (s.jump target).regs = s.regs := rfl

@[simp] theorem State.jump_mem (s : State) (target : Addr) : (s.jump target).mem = s.mem := rfl

@[simp] theorem State.jump_prefixActive (s : State) (target : Addr) : (s.jump target).prefixActive = s.prefixActive := rfl

@[simp] theorem State.jump_getReg (s : State) (target : Addr) (q : Reg) : (s.jump target).getReg q = s.getReg q := rfl

@[simp] theorem State.jump_getPair (s : State) (target : Addr) (q : Pair) : (s.jump target).getPair q = s.getPair q := rfl

@[simp] theorem State.jump_memRead (s : State) (target : Addr) (b : Addr) : (s.jump target).memRead b = s.memRead b := rfl

/-! ### toNormal -/

@[simp] theorem State.toNormal_pc (s : State) : (s.toNormal).pc = s.pc := rfl

@[simp] theorem State.toNormal_sp (s : State) : (s.toNormal).sp = s.sp := rfl

@[simp] theorem State.toNormal_psw (s : State) : (s.toNormal).psw = s.psw := rfl

@[simp] theorem State.toNormal_es (s : State) : (s.toNormal).es = s.es := rfl

@[simp] theorem State.toNormal_cs (s : State) : (s.toNormal).cs = s.cs := rfl

@[simp] theorem State.toNormal_regs (s : State) : (s.toNormal).regs = s.regs := rfl

@[simp] theorem State.toNormal_mem (s : State) : (s.toNormal).mem = s.mem := rfl

@[simp] theorem State.toNormal_prefixActive (s : State) : (s.toNormal).prefixActive = false := rfl

@[simp] theorem State.toNormal_getReg (s : State) (q : Reg) : (s.toNormal).getReg q = s.getReg q := rfl

@[simp] theorem State.toNormal_getPair (s : State) (q : Pair) : (s.toNormal).getPair q = s.getPair q := rfl

@[simp] theorem State.toNormal_memRead (s : State) (b : Addr) : (s.toNormal).memRead b = s.memRead b := rfl

/-! ### toExtended -/

@[simp] theorem State.toExtended_pc (s : State) : (s.toExtended).pc = s.pc := rfl

@[simp] theorem State.toExtended_sp (s : State) : (s.toExtended).sp = s.sp := rfl

@[simp] theorem State.toExtended_psw (s : State) : (s.toExtended).psw = s.psw := rfl

@[simp] theorem State.toExtended_es (s : State) : (s.toExtended).es = s.es := rfl

@[simp] theorem State.toExtended_cs (s : State) : (s.toExtended).cs = s.cs := rfl

@[simp] theorem State.toExtended_regs (s : State) : (s.toExtended).regs = s.regs := rfl

@[simp] theorem State.toExtended_mem (s : State) : (s.toExtended).mem = s.mem := rfl

@[simp] theorem State.toExtended_prefixActive (s : State) : (s.toExtended).prefixActive = true := rfl

@[simp] theorem State.toExtended_getReg (s : State) (q : Reg) : (s.toExtended).getReg q = s.getReg q := rfl

@[simp] theorem State.toExtended_getPair (s : State) (q : Pair) : (s.toExtended).getPair q = s.getPair q := rfl

@[simp] theorem State.toExtended_memRead (s : State) (b : Addr) : (s.toExtended).memRead b = s.memRead b := rfl

/-! ### consume -/

@[simp] theorem State.consume_pc (s : State) (n : Nat) : (s.consume n).pc = s.pc + BitVec.ofNat 20 n := by rw [State.consume_eq]

@[simp] theorem State.consume_sp (s : State) (n : Nat) : (s.consume n).sp = s.sp := by rw [State.consume_eq]

@[simp] theorem State.consume_psw (s : State) (n : Nat) : (s.consume n).psw = s.psw := by rw [State.consume_eq]

@[simp] theorem State.consume_es (s : State) (n : Nat) : (s.consume n).es = s.es := by rw [State.consume_eq]

@[simp] theorem State.consume_cs (s : State) (n : Nat) : (s.consume n).cs = s.cs := by rw [State.consume_eq]

@[simp] theorem State.consume_regs (s : State) (n : Nat) : (s.consume n).regs = s.regs := by rw [State.consume_eq]

@[simp] theorem State.consume_mem (s : State) (n : Nat) : (s.consume n).mem = s.mem := by rw [State.consume_eq]

@[simp] theorem State.consume_prefixActive (s : State) (n : Nat) : (s.consume n).prefixActive = s.prefixActive := by rw [State.consume_eq]

@[simp] theorem State.consume_getReg (s : State) (n : Nat) (q : Reg) : (s.consume n).getReg q = s.getReg q := by rw [State.consume_eq]; rfl

@[simp] theorem State.consume_getPair (s : State) (n : Nat) (q : Pair) : (s.consume n).getPair q = s.getPair q := by rw [State.consume_eq]; rfl

@[simp] theorem State.consume_memRead (s : State) (n : Nat) (b : Addr) : (s.consume n).memRead b = s.memRead b := by rw [State.consume_eq]; rfl

/-! ### Reset -/

theorem State.resetWith_mem_wf (params : ResetParams) : (State.resetWith params).mem.wf := Memory.wf_nil

end Sys2Proof.Machine
end

