-- ==== Sys2Proof/Laws/Bits.lean ====
section
/-! SUPPORT. The bit helpers as numbers and bit by bit. -/

namespace Sys2Proof

theorem wordOf_toNat (lo hi : Byte) : (wordOf lo hi).toNat = hi.toNat * 256 + lo.toNat := by
  have h : (wordOf lo hi).toNat = hi.toNat <<< 8 ||| lo.toNat := BitVec.toNat_append hi lo
  rw [h, ← Nat.shiftLeft_add_eq_or_of_lt lo.isLt, Nat.shiftLeft_eq]

theorem lowByte_toNat (w : Word) : (lowByte w).toNat = w.toNat % 256 := by
  simp [lowByte]

theorem highByte_toNat (w : Word) : (highByte w).toNat = w.toNat / 256 := by
  have h := w.isLt
  simp only [highByte, BitVec.extractLsb'_toNat, Nat.shiftRight_eq_div_pow]
  omega

/-- One bit is written and every other one kept. -/
theorem setBit_getLsbD (b : Byte) {k : Nat} (j : Nat) (v : Bool) (hk : k < 8) :
    (setBit b k v).getLsbD j = if j = k then v else b.getLsbD j := by
  have hone : (1#8 <<< k).getLsbD j = decide (j = k) := by
    rw [BitVec.getLsbD_shiftLeft, BitVec.getLsbD_one]
    by_cases hj : j = k
    · simp [hj, hk]
    · have : ¬(k ≤ j ∧ j - k = 0) := by omega
      grind
  unfold setBit
  by_cases hj8 : j < 8
  · cases v
    · rw [if_neg (by simp), BitVec.getLsbD_and, BitVec.getLsbD_not, hone]
      by_cases hj : j = k <;> simp [hj, hj8]
    · rw [if_pos rfl, BitVec.getLsbD_or, hone]
      by_cases hj : j = k <;> simp [hj]
  · have hj : j ≠ k := by omega
    have hz : ∀ x : Byte, x.getLsbD j = false := fun x => BitVec.getLsbD_of_ge x j (by omega)
    simp [hj, hz]

theorem lowNibble_toNat (a : Byte) : (a &&& 0xF).toNat = a.toNat % 16 := by
  rw [BitVec.toNat_and]
  exact Nat.and_two_pow_sub_one_eq_mod _ 4

end Sys2Proof
end

