-- ==== Sys2Proof/Laws/Decode.lean ====
section
/-! SUPPORT. What the decoder answers for each shape of encoding, and that the opcode maps list no byte twice. -/

namespace Sys2Proof.Laws

open Sys2Proof.Machine

/-- No byte stands twice in the first map: 30_encoding.md R70. -/
theorem firstMap_nodup : (firstMap.map Prod.fst).Nodup := by decide

/-- No byte stands twice in the second map: 30_encoding.md R70. -/
theorem secondMap_nodup : (secondMap.map Prod.fst).Nodup := by decide

/-- The escape byte is no first-map instruction. -/
theorem firstMap_no_escape : firstMap.lookup escapeOpcode = none := by decide

theorem decodeWindow_first {p : Bool} {b0 : Byte} {row : Operands} (b1 b2 : Byte)
    (hrow : firstMap.lookup b0 = some row) (hp : p = false ∨ b0 ≠ prefixOpcode) :
    decodeWindow p b0 b1 b2 = .ok (row.assemble b1 b2, row.length) := by
  have hesc : b0 ≠ escapeOpcode := by
    rintro rfl
    simp [firstMap_no_escape] at hrow
  have hpre : ¬(p = true ∧ b0 = prefixOpcode) := by
    rintro ⟨rfl, hb⟩
    simp [hb] at hp
  simp [decodeWindow, hpre, hesc, hrow]

theorem decodeWindow_second {p : Bool} {b1 : Byte} {i : Instr} (b2 : Byte) (hrow : secondMap.lookup b1 = some i) :
    decodeWindow p escapeOpcode b1 b2 = .ok (i, 2) := by
  have hne : escapeOpcode ≠ prefixOpcode := by decide
  simp [decodeWindow, hne, hrow]

theorem decode_bare {p : Bool} {b : Byte} {i : Instr} (hrow : firstMap.lookup b = some (.bare i))
    (hp : p = false ∨ b ≠ prefixOpcode) (rest : List Byte) : decode p (b :: rest) = .ok (i, rest) := by
  simp [decode, decodeWindow_first _ _ hrow hp, Operands.assemble, Operands.length]

theorem decode_byte {p : Bool} {b : Byte} {build : Byte → Instr} (hrow : firstMap.lookup b = some (.byte build))
    (hp : p = false ∨ b ≠ prefixOpcode) (v : Byte) (rest : List Byte) :
    decode p (b :: v :: rest) = .ok (build v, rest) := by
  simp [decode, decodeWindow_first _ _ hrow hp, Operands.assemble, Operands.length]

theorem decode_word {p : Bool} {b : Byte} {build : Word → Instr} (hrow : firstMap.lookup b = some (.word build))
    (hp : p = false ∨ b ≠ prefixOpcode) (w : Word) (rest : List Byte) :
    decode p (b :: lowByte w :: highByte w :: rest) = .ok (build w, rest) := by
  simp [decode, decodeWindow_first _ _ hrow hp, Operands.assemble, Operands.length]

theorem decode_second {p : Bool} {b1 : Byte} {i : Instr} (hrow : secondMap.lookup b1 = some i) (rest : List Byte) :
    decode p (escapeOpcode :: b1 :: rest) = .ok (i, rest) := by
  simp [decode, decodeWindow_second _ hrow]

end Sys2Proof.Laws
end

