-- ==== Sys2Proof/Laws/Exec.lean ====
section
/-! SUPPORT. What exec does with each instruction, as its shared operation: later proofs unfold neither exec nor a meaning. -/

namespace Sys2Proof.Machine

@[simp] theorem exec_nop (s : State) : exec .nop s = noOperation s := rfl

@[simp] theorem exec_xchA_X (s : State) : exec .xchA_X s = exchangeBytes .X 1 s := rfl

@[simp] theorem exec_addA_byte (imm : Byte) (s : State) : exec (.addA_byte imm) s = addImmediate imm s := rfl

@[simp] theorem exec_esPrefix (s : State) : exec .esPrefix s = enterPrefix s := rfl

@[simp] theorem exec_movwBC_AX (s : State) : exec .movwBC_AX s = copyPair .BC .AX s := rfl

@[simp] theorem exec_movwDE_AX (s : State) : exec .movwDE_AX s = copyPair .DE .AX s := rfl

@[simp] theorem exec_movwHL_AX (s : State) : exec .movwHL_AX s = copyPair .HL .AX s := rfl

@[simp] theorem exec_movwAX_BC (s : State) : exec .movwAX_BC s = copyPair .AX .BC s := rfl

@[simp] theorem exec_movwAX_DE (s : State) : exec .movwAX_DE s = copyPair .AX .DE s := rfl

@[simp] theorem exec_movwAX_HL (s : State) : exec .movwAX_HL s = copyPair .AX .HL s := rfl

@[simp] theorem exec_movwAX_word (imm : Word) (s : State) : exec (.movwAX_word imm) s = loadWord .AX imm s := rfl

@[simp] theorem exec_movwBC_word (imm : Word) (s : State) : exec (.movwBC_word imm) s = loadWord .BC imm s := rfl

@[simp] theorem exec_movwDE_word (imm : Word) (s : State) : exec (.movwDE_word imm) s = loadWord .DE imm s := rfl

@[simp] theorem exec_movwHL_word (imm : Word) (s : State) : exec (.movwHL_word imm) s = loadWord .HL imm s := rfl

@[simp] theorem exec_xchwAX_BC (s : State) : exec .xchwAX_BC s = exchangePairs .BC s := rfl

@[simp] theorem exec_xchwAX_DE (s : State) : exec .xchwAX_DE s = exchangePairs .DE s := rfl

@[simp] theorem exec_xchwAX_HL (s : State) : exec .xchwAX_HL s = exchangePairs .HL s := rfl

@[simp] theorem exec_movX_byte (imm : Byte) (s : State) : exec (.movX_byte imm) s = loadImmediate .X imm s := rfl

@[simp] theorem exec_movA_byte (imm : Byte) (s : State) : exec (.movA_byte imm) s = loadImmediate .A imm s := rfl

@[simp] theorem exec_movC_byte (imm : Byte) (s : State) : exec (.movC_byte imm) s = loadImmediate .C imm s := rfl

@[simp] theorem exec_movB_byte (imm : Byte) (s : State) : exec (.movB_byte imm) s = loadImmediate .B imm s := rfl

@[simp] theorem exec_movE_byte (imm : Byte) (s : State) : exec (.movE_byte imm) s = loadImmediate .E imm s := rfl

@[simp] theorem exec_movD_byte (imm : Byte) (s : State) : exec (.movD_byte imm) s = loadImmediate .D imm s := rfl

@[simp] theorem exec_movL_byte (imm : Byte) (s : State) : exec (.movL_byte imm) s = loadImmediate .L imm s := rfl

@[simp] theorem exec_movH_byte (imm : Byte) (s : State) : exec (.movH_byte imm) s = loadImmediate .H imm s := rfl

@[simp] theorem exec_movA_X (s : State) : exec .movA_X s = copyByte .A .X s := rfl

@[simp] theorem exec_movA_C (s : State) : exec .movA_C s = copyByte .A .C s := rfl

@[simp] theorem exec_movA_B (s : State) : exec .movA_B s = copyByte .A .B s := rfl

@[simp] theorem exec_movA_E (s : State) : exec .movA_E s = copyByte .A .E s := rfl

@[simp] theorem exec_movA_D (s : State) : exec .movA_D s = copyByte .A .D s := rfl

@[simp] theorem exec_movA_L (s : State) : exec .movA_L s = copyByte .A .L s := rfl

@[simp] theorem exec_movA_H (s : State) : exec .movA_H s = copyByte .A .H s := rfl

@[simp] theorem exec_movX_A (s : State) : exec .movX_A s = copyByte .X .A s := rfl

@[simp] theorem exec_movC_A (s : State) : exec .movC_A s = copyByte .C .A s := rfl

@[simp] theorem exec_movB_A (s : State) : exec .movB_A s = copyByte .B .A s := rfl

@[simp] theorem exec_movE_A (s : State) : exec .movE_A s = copyByte .E .A s := rfl

@[simp] theorem exec_movD_A (s : State) : exec .movD_A s = copyByte .D .A s := rfl

@[simp] theorem exec_movL_A (s : State) : exec .movL_A s = copyByte .L .A s := rfl

@[simp] theorem exec_movH_A (s : State) : exec .movH_A s = copyByte .H .A s := rfl

@[simp] theorem exec_movA_atDE (s : State) : exec .movA_atDE s = loadIndirect .DE s := rfl

@[simp] theorem exec_movA_atDEdisp (disp : Byte) (s : State) : exec (.movA_atDEdisp disp) s = loadDisplaced .DE disp s := rfl

@[simp] theorem exec_movA_atHL (s : State) : exec .movA_atHL s = loadIndirect .HL s := rfl

@[simp] theorem exec_movA_atHLdisp (disp : Byte) (s : State) : exec (.movA_atHLdisp disp) s = loadDisplaced .HL disp s := rfl

@[simp] theorem exec_movA_saddr (saddr : Byte) (s : State) : exec (.movA_saddr saddr) s = loadShort .A saddr s := rfl

@[simp] theorem exec_movA_sfr (sfr : Byte) (s : State) : exec (.movA_sfr sfr) s = loadSfr sfr s := rfl

@[simp] theorem exec_movA_abs (addr : Word) (s : State) : exec (.movA_abs addr) s = loadAbsolute .A addr s := rfl

@[simp] theorem exec_movAtDE_A (s : State) : exec .movAtDE_A s = storeIndirect .DE s := rfl

@[simp] theorem exec_movAtDEdisp_A (disp : Byte) (s : State) : exec (.movAtDEdisp_A disp) s = storeDisplaced .DE disp s := rfl

@[simp] theorem exec_movAtHL_A (s : State) : exec .movAtHL_A s = storeIndirect .HL s := rfl

@[simp] theorem exec_movAtHLdisp_A (disp : Byte) (s : State) : exec (.movAtHLdisp_A disp) s = storeDisplaced .HL disp s := rfl

@[simp] theorem exec_movSaddr_A (saddr : Byte) (s : State) : exec (.movSaddr_A saddr) s = storeShort saddr s := rfl

@[simp] theorem exec_movSfr_A (sfr : Byte) (s : State) : exec (.movSfr_A sfr) s = storeSfr sfr s := rfl

@[simp] theorem exec_movAbs_A (addr : Word) (s : State) : exec (.movAbs_A addr) s = storeAbsolute addr s := rfl

@[simp] theorem exec_movX_saddr (saddr : Byte) (s : State) : exec (.movX_saddr saddr) s = loadShort .X saddr s := rfl

@[simp] theorem exec_movB_saddr (saddr : Byte) (s : State) : exec (.movB_saddr saddr) s = loadShort .B saddr s := rfl

@[simp] theorem exec_movC_saddr (saddr : Byte) (s : State) : exec (.movC_saddr saddr) s = loadShort .C saddr s := rfl

@[simp] theorem exec_movX_abs (addr : Word) (s : State) : exec (.movX_abs addr) s = loadAbsolute .X addr s := rfl

@[simp] theorem exec_movB_abs (addr : Word) (s : State) : exec (.movB_abs addr) s = loadAbsolute .B addr s := rfl

@[simp] theorem exec_movC_abs (addr : Word) (s : State) : exec (.movC_abs addr) s = loadAbsolute .C addr s := rfl

@[simp] theorem exec_onewAX (s : State) : exec .onewAX s = setPairTo .AX 0x0001 s := rfl

@[simp] theorem exec_onewBC (s : State) : exec .onewBC s = setPairTo .BC 0x0001 s := rfl

@[simp] theorem exec_clrwAX (s : State) : exec .clrwAX s = setPairTo .AX 0x0000 s := rfl

@[simp] theorem exec_clrwBC (s : State) : exec .clrwBC s = setPairTo .BC 0x0000 s := rfl

@[simp] theorem exec_addX_A (s : State) : exec .addX_A s = addBytes .X .A s := rfl

@[simp] theorem exec_addA_A (s : State) : exec .addA_A s = addBytes .A .A s := rfl

@[simp] theorem exec_addC_A (s : State) : exec .addC_A s = addBytes .C .A s := rfl

@[simp] theorem exec_addB_A (s : State) : exec .addB_A s = addBytes .B .A s := rfl

@[simp] theorem exec_addE_A (s : State) : exec .addE_A s = addBytes .E .A s := rfl

@[simp] theorem exec_addD_A (s : State) : exec .addD_A s = addBytes .D .A s := rfl

@[simp] theorem exec_addL_A (s : State) : exec .addL_A s = addBytes .L .A s := rfl

@[simp] theorem exec_addH_A (s : State) : exec .addH_A s = addBytes .H .A s := rfl

@[simp] theorem exec_addA_X (s : State) : exec .addA_X s = addBytes .A .X s := rfl

@[simp] theorem exec_addA_C (s : State) : exec .addA_C s = addBytes .A .C s := rfl

@[simp] theorem exec_addA_B (s : State) : exec .addA_B s = addBytes .A .B s := rfl

@[simp] theorem exec_addA_E (s : State) : exec .addA_E s = addBytes .A .E s := rfl

@[simp] theorem exec_addA_D (s : State) : exec .addA_D s = addBytes .A .D s := rfl

@[simp] theorem exec_addA_L (s : State) : exec .addA_L s = addBytes .A .L s := rfl

@[simp] theorem exec_addA_H (s : State) : exec .addA_H s = addBytes .A .H s := rfl

@[simp] theorem exec_xchA_C (s : State) : exec .xchA_C s = exchangeBytes .C 2 s := rfl

@[simp] theorem exec_xchA_B (s : State) : exec .xchA_B s = exchangeBytes .B 2 s := rfl

@[simp] theorem exec_xchA_E (s : State) : exec .xchA_E s = exchangeBytes .E 2 s := rfl

@[simp] theorem exec_xchA_D (s : State) : exec .xchA_D s = exchangeBytes .D 2 s := rfl

@[simp] theorem exec_xchA_L (s : State) : exec .xchA_L s = exchangeBytes .L 2 s := rfl

@[simp] theorem exec_xchA_H (s : State) : exec .xchA_H s = exchangeBytes .H 2 s := rfl

@[simp] theorem exec_brAX (s : State) : exec .brAX s = jumpAX s := rfl

end Sys2Proof.Machine
end

