-- ==== Sys2Proof/Laws/Ops.lean ====
section
/-! SUPPORT. For each shared operation that can stop, once everything it can do; and what a cycle can do. -/

namespace Sys2Proof.Machine

/-! ### Errors -/

@[simp] theorem raise_ne_next (kind : Addr → Fault) (s t : State) : raise kind s ≠ .next t := nofun

@[simp] theorem raise_ne_refused (kind : Addr → Fault) (s : State) (r : Refusal) : raise kind s ≠ .refused r := nofun

theorem raise_eq_fault {kind : Addr → Fault} {s : State} {f : Fault} : raise kind s = .fault f ↔ f = kind s.cycleStart := by
  simp [raise, eq_comm]

@[simp] theorem State.cycleStart_of_normal {s : State} (h : s.prefixActive = false) : s.cycleStart = s.pc := by
  simp [State.cycleStart, h]

@[simp] theorem State.setPsw_cycleStart (s : State) (v : Byte) : (s.setPsw v).cycleStart = s.cycleStart := rfl

@[simp] theorem State.setEs_cycleStart (s : State) (v : Byte) : (s.setEs v).cycleStart = s.cycleStart := rfl

@[simp] theorem State.setCs_cycleStart (s : State) (v : Byte) : (s.setCs v).cycleStart = s.cycleStart := rfl

/-- After a prefix byte, the cycle started at it. -/
theorem State.cycleStart_after_prefix (s : State) : (s.consume 1).toExtended.cycleStart = s.pc := by
  simp [State.cycleStart]

/-! ### Operand checks and codes -/

theorem saddrInRange_iff {saddr : Byte} : saddrInRange saddr = true ↔ saddr.toNat ≤ 0xDF := by
  simp [saddrInRange]

theorem sfrMapped_iff {sfr : Byte} : sfrMapped sfr = true ↔ sfr = 0xFA ∨ sfr = 0xFC ∨ sfr = 0xFD := by
  simp [sfrMapped, or_assoc]

@[simp] theorem sfrRead_psw (s : State) : sfrRead 0xFA s = some s.psw := rfl

@[simp] theorem sfrRead_cs (s : State) : sfrRead 0xFC s = some s.cs := rfl

@[simp] theorem sfrRead_es (s : State) : sfrRead 0xFD s = some s.es := rfl

@[simp] theorem sfrWrite_psw (v : Byte) (s : State) : sfrWrite 0xFA v s = some (s.setPsw v) := rfl

@[simp] theorem sfrWrite_cs (v : Byte) (s : State) : sfrWrite 0xFC v s = some (s.setCs v) := rfl

@[simp] theorem sfrWrite_es (v : Byte) (s : State) : sfrWrite 0xFD v s = some (s.setEs v) := rfl

theorem sfrRead_isSome (sfr : Byte) (s : State) : (sfrRead sfr s).isSome = sfrMapped sfr := by
  unfold sfrRead sfrMapped
  split_ifs <;> simp_all

theorem sfrWrite_isSome (sfr v : Byte) (s : State) : (sfrWrite sfr v s).isSome = sfrMapped sfr := by
  unfold sfrWrite sfrMapped
  split_ifs <;> simp_all

theorem sfrRead_eq_none_iff {sfr : Byte} {s : State} : sfrRead sfr s = none ↔ sfrMapped sfr = false := by
  rw [← sfrRead_isSome sfr s]
  simp

theorem sfrWrite_eq_none_iff {sfr v : Byte} {s : State} : sfrWrite sfr v s = none ↔ sfrMapped sfr = false := by
  rw [← sfrWrite_isSome sfr v s]
  simp

/-- Everything a successful SFR write can do: 20_memory.md R47. -/
theorem sfrWrite_some_iff {sfr v : Byte} {s t : State} :
    sfrWrite sfr v s = some t ↔
      (sfr = 0xFA ∧ t = s.setPsw v) ∨ (sfr = 0xFC ∧ t = s.setCs v) ∨ (sfr = 0xFD ∧ t = s.setEs v) := by
  unfold sfrWrite
  split_ifs <;> simp_all <;> exact eq_comm

/-- Everything a successful SFR read can answer: 20_memory.md R47. -/
theorem sfrRead_some_iff {sfr v : Byte} {s : State} :
    sfrRead sfr s = some v ↔ (sfr = 0xFA ∧ v = s.psw) ∨ (sfr = 0xFC ∧ v = s.cs) ∨ (sfr = 0xFD ∧ v = s.es) := by
  unfold sfrRead
  split_ifs <;> simp_all <;> exact eq_comm

/-! ### The operations that can stop -/

/-- R87: a short-address load completes exactly on its operand's domain. -/
theorem loadShort_next_iff {r : Reg} {saddr : Byte} {s t : State} :
    loadShort r saddr s = .next t ↔
      saddrInRange saddr = true ∧ t = (s.consume 2).setReg r (s.memRead (saddrAddr saddr)) := by
  unfold loadShort
  split
  · next h => simp [h, eq_comm]
  · next h => simp [h]

/-- R88: a short-address store completes exactly on its operand's domain. -/
theorem storeShort_next_iff {saddr : Byte} {s t : State} :
    storeShort saddr s = .next t ↔
      saddrInRange saddr = true ∧ t = (s.consume 2).memWrite (saddrAddr saddr) (s.getReg .A) := by
  unfold storeShort
  split
  · next h => simp [h, eq_comm]
  · next h => simp [h]

/-- R95: an SFR read completes exactly on the mapped codes. -/
theorem loadSfr_next_iff {sfr : Byte} {s t : State} :
    loadSfr sfr s = .next t ↔
      (sfr = 0xFA ∧ t = (s.consume 2).setReg .A s.psw) ∨ (sfr = 0xFC ∧ t = (s.consume 2).setReg .A s.cs) ∨
        (sfr = 0xFD ∧ t = (s.consume 2).setReg .A s.es) := by
  unfold loadSfr sfrRead
  split_ifs <;> simp_all <;> exact eq_comm

/-- R96: an SFR write completes exactly on the mapped codes. -/
theorem storeSfr_next_iff {sfr : Byte} {s t : State} :
    storeSfr sfr s = .next t ↔
      (sfr = 0xFA ∧ t = (s.consume 2).setPsw (s.getReg .A)) ∨ (sfr = 0xFC ∧ t = (s.consume 2).setCs (s.getReg .A)) ∨
        (sfr = 0xFD ∧ t = (s.consume 2).setEs (s.getReg .A)) := by
  unfold storeSfr sfrWrite
  split_ifs <;> simp_all <;> exact eq_comm

/-- R87: the error of a short-address load. -/
theorem loadShort_outOfRange {r : Reg} {saddr : Byte} {s : State} (h : saddrInRange saddr = false) :
    loadShort r saddr s = .fault (.saddrOutOfRange saddr s.cycleStart) := by
  simp [loadShort, h, raise]

/-- R88: the error of a short-address store. -/
theorem storeShort_outOfRange {saddr : Byte} {s : State} (h : saddrInRange saddr = false) :
    storeShort saddr s = .fault (.saddrOutOfRange saddr s.cycleStart) := by
  simp [storeShort, h, raise]

/-- R95: the error of an SFR read. -/
theorem loadSfr_unmapped {sfr : Byte} {s : State} (h : sfrMapped sfr = false) :
    loadSfr sfr s = .fault (.unmappedSfr sfr s.cycleStart) := by
  simp [loadSfr, sfrRead_eq_none_iff.mpr h, raise]

/-- R96: the error of an SFR write. -/
theorem storeSfr_unmapped {sfr : Byte} {s : State} (h : sfrMapped sfr = false) :
    storeSfr sfr s = .fault (.unmappedSfr sfr s.cycleStart) := by
  simp [storeSfr, sfrWrite_eq_none_iff.mpr h, raise]

/-- 30_encoding.md R67, R74: the prefix completes exactly in `Normal`. -/
theorem enterPrefix_next_iff {s t : State} :
    enterPrefix s = .next t ↔ s.prefixActive = false ∧ t = (s.consume 1).toExtended := by
  unfold enterPrefix
  split
  · next h => simp [h]
  · next h => simp [h, eq_comm]

/-! ### The cycle -/

theorem clearPrefix_next_iff {r : Result} {t : State} : clearPrefix r = .next t ↔ ∃ u, r = .next u ∧ t = u.toNormal := by
  cases r <;> simp [clearPrefix, eq_comm]

theorem clearPrefix_fault_iff {r : Result} {f : Fault} : clearPrefix r = .fault f ↔ r = .fault f := by
  cases r <;> simp [clearPrefix]

theorem clearPrefix_refused_iff {r : Result} {why : Refusal} : clearPrefix r = .refused why ↔ r = .refused why := by
  cases r <;> simp [clearPrefix]

@[simp] theorem State.toNormal_of_normal {s : State} (h : s.prefixActive = false) : s.toNormal = s := by
  cases s
  simp_all [State.toNormal]

theorem enterPrefix_of_normal {s : State} (h : s.prefixActive = false) :
    enterPrefix s = .next (s.consume 1).toExtended :=
  enterPrefix_next_iff.mpr ⟨h, rfl⟩

/-- The state at the first opcode byte of the cycle that starts in `s`: after the prefix byte, if there is one. -/
def State.atOpcode (s : State) : State :=
  if s.toNormal.peek 0 = prefixOpcode then (s.toNormal.consume 1).toExtended else s.toNormal

/-- A cycle is the decoded run from the first opcode byte on. -/
theorem step_eq_runDecoded (s : State) : step s = runDecoded exec s.atOpcode := by
  unfold step cycle State.atOpcode
  split
  · rw [exec_esPrefix, enterPrefix_of_normal (State.toNormal_prefixActive s)]
  · rfl

theorem State.atOpcode_cycleStart (s : State) : s.atOpcode.cycleStart = s.pc := by
  unfold State.atOpcode
  split
  · rw [State.cycleStart_after_prefix, State.toNormal_pc]
  · rw [State.cycleStart_of_normal (State.toNormal_prefixActive s), State.toNormal_pc]

@[simp] theorem State.atOpcode_mem (s : State) : s.atOpcode.mem = s.mem := by
  unfold State.atOpcode
  split <;> simp

/-- Everything a cycle that commits can have done: it decoded one instruction at the first opcode byte, ran it, and cleared the
prefix flag. -/
theorem step_next_iff {s t : State} :
    step s = .next t ↔
      ∃ i n u, decodeAt s.atOpcode = .ok (i, n) ∧ exec i s.atOpcode = .next u ∧ t = u.toNormal := by
  rw [step_eq_runDecoded]
  unfold runDecoded
  cases h : decodeAt s.atOpcode with
  | error why => cases why <;> simp [raiseUndecoded]
  | ok x =>
    obtain ⟨i, n⟩ := x
    simp [clearPrefix_next_iff]

/-- Everything a cycle that raises an error can have met. -/
theorem step_fault_iff {s : State} {f : Fault} :
    step s = .fault f ↔
      (∃ why, decodeAt s.atOpcode = .error why ∧ raiseUndecoded why s.atOpcode = .fault f) ∨
      ∃ i n, decodeAt s.atOpcode = .ok (i, n) ∧ exec i s.atOpcode = .fault f := by
  rw [step_eq_runDecoded]
  unfold runDecoded
  cases h : decodeAt s.atOpcode with
  | error why => simp
  | ok x =>
    obtain ⟨i, n⟩ := x
    simp [clearPrefix_fault_iff]

end Sys2Proof.Machine
end

