-- ==== Sys2Proof/Laws/PerInstr.lean ====
section
/-! SUPPORT. Per-instruction families of statements about the instructions as syntax.

`RoundTrip`: the decoder, in its Normal state, reads an instruction back from its encoding and leaves the bytes after it. -/

namespace Sys2Proof.Laws

/-- Decoding an instruction's encoding gives the instruction back, whatever bytes follow. -/
def RoundTrip.Statement (i : Instr) : Prop := ∀ rest, decode false (encode i ++ rest) = .ok (i, rest)

theorem RoundTrip.nop : RoundTrip.Statement .nop := decode_bare rfl (.inl rfl)

theorem RoundTrip.xchA_X : RoundTrip.Statement .xchA_X := decode_bare rfl (.inl rfl)

theorem RoundTrip.addA_byte (imm : Byte) : RoundTrip.Statement (.addA_byte imm) := decode_byte rfl (.inl rfl) imm

theorem RoundTrip.esPrefix : RoundTrip.Statement .esPrefix := decode_bare rfl (.inl rfl)

theorem RoundTrip.movwBC_AX : RoundTrip.Statement .movwBC_AX := decode_bare rfl (.inl rfl)

theorem RoundTrip.movwDE_AX : RoundTrip.Statement .movwDE_AX := decode_bare rfl (.inl rfl)

theorem RoundTrip.movwHL_AX : RoundTrip.Statement .movwHL_AX := decode_bare rfl (.inl rfl)

theorem RoundTrip.movwAX_BC : RoundTrip.Statement .movwAX_BC := decode_bare rfl (.inl rfl)

theorem RoundTrip.movwAX_DE : RoundTrip.Statement .movwAX_DE := decode_bare rfl (.inl rfl)

theorem RoundTrip.movwAX_HL : RoundTrip.Statement .movwAX_HL := decode_bare rfl (.inl rfl)

theorem RoundTrip.movwAX_word (imm : Word) : RoundTrip.Statement (.movwAX_word imm) := decode_word rfl (.inl rfl) imm

theorem RoundTrip.movwBC_word (imm : Word) : RoundTrip.Statement (.movwBC_word imm) := decode_word rfl (.inl rfl) imm

theorem RoundTrip.movwDE_word (imm : Word) : RoundTrip.Statement (.movwDE_word imm) := decode_word rfl (.inl rfl) imm

theorem RoundTrip.movwHL_word (imm : Word) : RoundTrip.Statement (.movwHL_word imm) := decode_word rfl (.inl rfl) imm

theorem RoundTrip.xchwAX_BC : RoundTrip.Statement .xchwAX_BC := decode_bare rfl (.inl rfl)

theorem RoundTrip.xchwAX_DE : RoundTrip.Statement .xchwAX_DE := decode_bare rfl (.inl rfl)

theorem RoundTrip.xchwAX_HL : RoundTrip.Statement .xchwAX_HL := decode_bare rfl (.inl rfl)

theorem RoundTrip.movX_byte (imm : Byte) : RoundTrip.Statement (.movX_byte imm) := decode_byte rfl (.inl rfl) imm

theorem RoundTrip.movA_byte (imm : Byte) : RoundTrip.Statement (.movA_byte imm) := decode_byte rfl (.inl rfl) imm

theorem RoundTrip.movC_byte (imm : Byte) : RoundTrip.Statement (.movC_byte imm) := decode_byte rfl (.inl rfl) imm

theorem RoundTrip.movB_byte (imm : Byte) : RoundTrip.Statement (.movB_byte imm) := decode_byte rfl (.inl rfl) imm

theorem RoundTrip.movE_byte (imm : Byte) : RoundTrip.Statement (.movE_byte imm) := decode_byte rfl (.inl rfl) imm

theorem RoundTrip.movD_byte (imm : Byte) : RoundTrip.Statement (.movD_byte imm) := decode_byte rfl (.inl rfl) imm

theorem RoundTrip.movL_byte (imm : Byte) : RoundTrip.Statement (.movL_byte imm) := decode_byte rfl (.inl rfl) imm

theorem RoundTrip.movH_byte (imm : Byte) : RoundTrip.Statement (.movH_byte imm) := decode_byte rfl (.inl rfl) imm

theorem RoundTrip.movA_X : RoundTrip.Statement .movA_X := decode_bare rfl (.inl rfl)

theorem RoundTrip.movA_C : RoundTrip.Statement .movA_C := decode_bare rfl (.inl rfl)

theorem RoundTrip.movA_B : RoundTrip.Statement .movA_B := decode_bare rfl (.inl rfl)

theorem RoundTrip.movA_E : RoundTrip.Statement .movA_E := decode_bare rfl (.inl rfl)

theorem RoundTrip.movA_D : RoundTrip.Statement .movA_D := decode_bare rfl (.inl rfl)

theorem RoundTrip.movA_L : RoundTrip.Statement .movA_L := decode_bare rfl (.inl rfl)

theorem RoundTrip.movA_H : RoundTrip.Statement .movA_H := decode_bare rfl (.inl rfl)

theorem RoundTrip.movX_A : RoundTrip.Statement .movX_A := decode_bare rfl (.inl rfl)

theorem RoundTrip.movC_A : RoundTrip.Statement .movC_A := decode_bare rfl (.inl rfl)

theorem RoundTrip.movB_A : RoundTrip.Statement .movB_A := decode_bare rfl (.inl rfl)

theorem RoundTrip.movE_A : RoundTrip.Statement .movE_A := decode_bare rfl (.inl rfl)

theorem RoundTrip.movD_A : RoundTrip.Statement .movD_A := decode_bare rfl (.inl rfl)

theorem RoundTrip.movL_A : RoundTrip.Statement .movL_A := decode_bare rfl (.inl rfl)

theorem RoundTrip.movH_A : RoundTrip.Statement .movH_A := decode_bare rfl (.inl rfl)

theorem RoundTrip.movA_atDE : RoundTrip.Statement .movA_atDE := decode_bare rfl (.inl rfl)

theorem RoundTrip.movA_atDEdisp (disp : Byte) : RoundTrip.Statement (.movA_atDEdisp disp) := decode_byte rfl (.inl rfl) disp

theorem RoundTrip.movA_atHL : RoundTrip.Statement .movA_atHL := decode_bare rfl (.inl rfl)

theorem RoundTrip.movA_atHLdisp (disp : Byte) : RoundTrip.Statement (.movA_atHLdisp disp) := decode_byte rfl (.inl rfl) disp

theorem RoundTrip.movA_saddr (saddr : Byte) : RoundTrip.Statement (.movA_saddr saddr) := decode_byte rfl (.inl rfl) saddr

theorem RoundTrip.movA_sfr (sfr : Byte) : RoundTrip.Statement (.movA_sfr sfr) := decode_byte rfl (.inl rfl) sfr

theorem RoundTrip.movA_abs (addr : Word) : RoundTrip.Statement (.movA_abs addr) := decode_word rfl (.inl rfl) addr

theorem RoundTrip.movAtDE_A : RoundTrip.Statement .movAtDE_A := decode_bare rfl (.inl rfl)

theorem RoundTrip.movAtDEdisp_A (disp : Byte) : RoundTrip.Statement (.movAtDEdisp_A disp) := decode_byte rfl (.inl rfl) disp

theorem RoundTrip.movAtHL_A : RoundTrip.Statement .movAtHL_A := decode_bare rfl (.inl rfl)

theorem RoundTrip.movAtHLdisp_A (disp : Byte) : RoundTrip.Statement (.movAtHLdisp_A disp) := decode_byte rfl (.inl rfl) disp

theorem RoundTrip.movSaddr_A (saddr : Byte) : RoundTrip.Statement (.movSaddr_A saddr) := decode_byte rfl (.inl rfl) saddr

theorem RoundTrip.movSfr_A (sfr : Byte) : RoundTrip.Statement (.movSfr_A sfr) := decode_byte rfl (.inl rfl) sfr

theorem RoundTrip.movAbs_A (addr : Word) : RoundTrip.Statement (.movAbs_A addr) := decode_word rfl (.inl rfl) addr

theorem RoundTrip.movX_saddr (saddr : Byte) : RoundTrip.Statement (.movX_saddr saddr) := decode_byte rfl (.inl rfl) saddr

theorem RoundTrip.movB_saddr (saddr : Byte) : RoundTrip.Statement (.movB_saddr saddr) := decode_byte rfl (.inl rfl) saddr

theorem RoundTrip.movC_saddr (saddr : Byte) : RoundTrip.Statement (.movC_saddr saddr) := decode_byte rfl (.inl rfl) saddr

theorem RoundTrip.movX_abs (addr : Word) : RoundTrip.Statement (.movX_abs addr) := decode_word rfl (.inl rfl) addr

theorem RoundTrip.movB_abs (addr : Word) : RoundTrip.Statement (.movB_abs addr) := decode_word rfl (.inl rfl) addr

theorem RoundTrip.movC_abs (addr : Word) : RoundTrip.Statement (.movC_abs addr) := decode_word rfl (.inl rfl) addr

theorem RoundTrip.onewAX : RoundTrip.Statement .onewAX := decode_bare rfl (.inl rfl)

theorem RoundTrip.onewBC : RoundTrip.Statement .onewBC := decode_bare rfl (.inl rfl)

theorem RoundTrip.clrwAX : RoundTrip.Statement .clrwAX := decode_bare rfl (.inl rfl)

theorem RoundTrip.clrwBC : RoundTrip.Statement .clrwBC := decode_bare rfl (.inl rfl)

theorem RoundTrip.addX_A : RoundTrip.Statement .addX_A := decode_second rfl

theorem RoundTrip.addA_A : RoundTrip.Statement .addA_A := decode_second rfl

theorem RoundTrip.addC_A : RoundTrip.Statement .addC_A := decode_second rfl

theorem RoundTrip.addB_A : RoundTrip.Statement .addB_A := decode_second rfl

theorem RoundTrip.addE_A : RoundTrip.Statement .addE_A := decode_second rfl

theorem RoundTrip.addD_A : RoundTrip.Statement .addD_A := decode_second rfl

theorem RoundTrip.addL_A : RoundTrip.Statement .addL_A := decode_second rfl

theorem RoundTrip.addH_A : RoundTrip.Statement .addH_A := decode_second rfl

theorem RoundTrip.addA_X : RoundTrip.Statement .addA_X := decode_second rfl

theorem RoundTrip.addA_C : RoundTrip.Statement .addA_C := decode_second rfl

theorem RoundTrip.addA_B : RoundTrip.Statement .addA_B := decode_second rfl

theorem RoundTrip.addA_E : RoundTrip.Statement .addA_E := decode_second rfl

theorem RoundTrip.addA_D : RoundTrip.Statement .addA_D := decode_second rfl

theorem RoundTrip.addA_L : RoundTrip.Statement .addA_L := decode_second rfl

theorem RoundTrip.addA_H : RoundTrip.Statement .addA_H := decode_second rfl

theorem RoundTrip.xchA_C : RoundTrip.Statement .xchA_C := decode_second rfl

theorem RoundTrip.xchA_B : RoundTrip.Statement .xchA_B := decode_second rfl

theorem RoundTrip.xchA_E : RoundTrip.Statement .xchA_E := decode_second rfl

theorem RoundTrip.xchA_D : RoundTrip.Statement .xchA_D := decode_second rfl

theorem RoundTrip.xchA_L : RoundTrip.Statement .xchA_L := decode_second rfl

theorem RoundTrip.xchA_H : RoundTrip.Statement .xchA_H := decode_second rfl

theorem RoundTrip.brAX : RoundTrip.Statement .brAX := decode_second rfl

end Sys2Proof.Laws
end

