-- ==== Sys2Proof/Tests/Slice0.lean ====
section
/-! SUPPORT. The tests. Every expected result is the spec's: the words of 30_encoding.md R79 and R80, and the vectors of
95_test_vectors.md, by their names there. The `witness` theorems meet the hypotheses of the statements they are named after. -/

namespace Sys2Proof.Tests

open Sys2Proof Sys2Proof.Machine

/-! ### Helpers -/

/-- Bytes at `a`, the pc there, and everything else as after reset. -/
def placed (a : Addr) (bytes : List Byte) : State := { State.reset with pc := a }.placeBytes a bytes

/-- pc0 of 95_test_vectors.md. -/
def at100 (bytes : List Byte) : State := placed 0x00100 bytes

/-- The cycle commits a state with the property. -/
def commits (s : State) (p : State → Bool) : Bool :=
  match step s with
  | .next t => p t
  | _ => false

/-- Two cycles commit, and the second leaves a state with the property. -/
def commitsTwice (s : State) (p : State → Bool) : Bool :=
  match step s with
  | .next t => commits t p
  | _ => false

/-- The cycle is this error. -/
def faults (s : State) (f : Fault) : Bool :=
  match step s with
  | .fault g => decide (g = f)
  | _ => false

/-- The instruction completes. -/
def completes (i : Instr) (s : State) : Bool :=
  match exec i s with
  | .next _ => true
  | _ => false

/-- The bytes are this instruction's, no more and no fewer. -/
def decodes (bytes : List Byte) (i : Instr) : Bool :=
  match decode false bytes with
  | .ok (j, []) => decide (j = i)
  | _ => false

/-- CY, AC and Z of a state, in that order. -/
def flags (s : State) : Bool × Bool × Bool := (s.cy, s.ac, s.z)

/-! ### Decoding: 30_encoding.md R79 and R80, every constructor -/

def words00 : List (List Byte × Instr) :=
  [([0x00], .nop), ([0x08], .xchA_X), ([0x0C, 0x05], .addA_byte 0x05), ([0x11], .esPrefix), ([0x12], .movwBC_AX),
   ([0x13], .movwAX_BC), ([0x14], .movwDE_AX), ([0x15], .movwAX_DE), ([0x16], .movwHL_AX), ([0x17], .movwAX_HL)]

def words30 : List (List Byte × Instr) :=
  [([0x30, 0x34, 0x12], .movwAX_word 0x1234), ([0x32, 0xCD, 0xAB], .movwBC_word 0xABCD),
   ([0x33], .xchwAX_BC), ([0x34, 0x00, 0x80], .movwDE_word 0x8000), ([0x35], .xchwAX_DE),
   ([0x36, 0x34, 0x12], .movwHL_word 0x1234), ([0x37], .xchwAX_HL)]

def words50 : List (List Byte × Instr) :=
  [([0x50, 0x2A], .movX_byte 0x2A), ([0x51, 0x7F], .movA_byte 0x7F), ([0x52, 0x01], .movC_byte 0x01),
   ([0x53, 0x80], .movB_byte 0x80), ([0x54, 0xFF], .movE_byte 0xFF), ([0x55, 0x00], .movD_byte 0x00),
   ([0x56, 0x01], .movL_byte 0x01), ([0x57, 0x02], .movH_byte 0x02)]

def words60 : List (List Byte × Instr) :=
  [([0x60], .movA_X), ([0x62], .movA_C), ([0x63], .movA_B), ([0x64], .movA_E), ([0x65], .movA_D), ([0x66], .movA_L),
   ([0x67], .movA_H), ([0x70], .movX_A), ([0x72], .movC_A), ([0x73], .movB_A), ([0x74], .movE_A), ([0x75], .movD_A),
   ([0x76], .movL_A), ([0x77], .movH_A)]

def words80 : List (List Byte × Instr) :=
  [([0x89], .movA_atDE), ([0x8A, 0x02], .movA_atDEdisp 0x02), ([0x8B], .movA_atHL), ([0x8C, 0xFF], .movA_atHLdisp 0xFF),
   ([0x8D, 0xDF], .movA_saddr 0xDF), ([0x8E, 0xFA], .movA_sfr 0xFA), ([0x8F, 0x34, 0x12], .movA_abs 0x1234),
   ([0x99], .movAtDE_A), ([0x9A, 0x34], .movAtDEdisp_A 0x34), ([0x9B], .movAtHL_A), ([0x9C, 0x20], .movAtHLdisp_A 0x20),
   ([0x9D, 0x00], .movSaddr_A 0x00), ([0x9E, 0xFD], .movSfr_A 0xFD), ([0x9F, 0x20, 0xFE], .movAbs_A 0xFE20)]

def wordsD0 : List (List Byte × Instr) :=
  [([0xD8, 0x05], .movX_saddr 0x05), ([0xD9, 0xFF, 0x00], .movX_abs 0x00FF), ([0xE6], .onewAX), ([0xE7], .onewBC),
   ([0xE8, 0x10], .movB_saddr 0x10), ([0xE9, 0x01, 0x80], .movB_abs 0x8001), ([0xF6], .clrwAX), ([0xF7], .clrwBC),
   ([0xF8, 0x11], .movC_saddr 0x11), ([0xF9, 0x34, 0x12], .movC_abs 0x1234)]

def words61 : List (List Byte × Instr) :=
  [([0x61, 0x00], .addX_A), ([0x61, 0x01], .addA_A), ([0x61, 0x02], .addC_A), ([0x61, 0x03], .addB_A),
   ([0x61, 0x04], .addE_A), ([0x61, 0x05], .addD_A), ([0x61, 0x06], .addL_A), ([0x61, 0x07], .addH_A),
   ([0x61, 0x08], .addA_X), ([0x61, 0x0A], .addA_C), ([0x61, 0x0B], .addA_B), ([0x61, 0x0C], .addA_E),
   ([0x61, 0x0D], .addA_D), ([0x61, 0x0E], .addA_L), ([0x61, 0x0F], .addA_H)]

def words618A : List (List Byte × Instr) :=
  [([0x61, 0x8A], .xchA_C), ([0x61, 0x8B], .xchA_B), ([0x61, 0x8C], .xchA_E), ([0x61, 0x8D], .xchA_D),
   ([0x61, 0x8E], .xchA_L), ([0x61, 0x8F], .xchA_H), ([0x61, 0xCB], .brAX)]

theorem test_decode_00 : words00.all (fun w => decodes w.1 w.2) = true := by decide
theorem test_decode_30 : words30.all (fun w => decodes w.1 w.2) = true := by decide
theorem test_decode_50 : words50.all (fun w => decodes w.1 w.2) = true := by decide
theorem test_decode_60 : words60.all (fun w => decodes w.1 w.2) = true := by decide
theorem test_decode_80 : words80.all (fun w => decodes w.1 w.2) = true := by decide
theorem test_decode_D0 : wordsD0.all (fun w => decodes w.1 w.2) = true := by decide
theorem test_decode_61 : words61.all (fun w => decodes w.1 w.2) = true := by decide
theorem test_decode_618A : words618A.all (fun w => decodes w.1 w.2) = true := by decide

/-- The tests above name 85 words, one for each row of spec/opcode_table.json, and no instruction twice. -/
theorem test_decode_covers_the_table :
    (words00 ++ words30 ++ words50 ++ words60 ++ words80 ++ wordsD0 ++ words61 ++ words618A).length = 85 ∧
    ((words00 ++ words30 ++ words50 ++ words60 ++ words80 ++ wordsD0 ++ words61 ++ words618A).map
      (fun w => w.1.take (if w.1.head? = some 0x61 then 2 else 1))).Nodup := by decide +kernel

/-- The opcode table's own numbering: spec/opcode_table.json, rows NOP, ES:, MOV C,!addr16 and BR AX. -/
theorem test_decodeTableWord :
    decodeTableWord 8 0x00 = some .nop ∧ decodeTableWord 8 0x11 = some .esPrefix ∧
    decodeTableWord 8 0xF9 = some (.movC_abs 0x0000) ∧ decodeTableWord 16 0x61CB = some .brAX ∧
    decodeTableWord 16 0x6109 = none := by decide

/-- The placed row runs as the first instruction after reset. -/
theorem test_withFetchWord :
    commits (State.reset.withFetchWord 16 0x61CB) (fun t => t.pc == 0x00000) = true ∧
    commits (State.reset.withFetchWord 8 0xE7) (fun t => t.getPair .BC == 0x0001 && t.pc == 0x00001) = true := by decide

/-! ### Well-formedness: 20_memory.md R46 and R47, 60_exceptions.md R122 -/

theorem test_wellFormed_refuses_short_addresses :
    [Instr.movA_saddr 0xE0, .movX_saddr 0xE0, .movB_saddr 0xFF, .movC_saddr 0xE0, .movSaddr_A 0xE0].all
      (fun i => !i.wellFormed) = true := by decide

theorem test_wellFormed_admits_short_addresses :
    [Instr.movA_saddr 0xDF, .movX_saddr 0xDF, .movB_saddr 0x00, .movC_saddr 0xDF, .movSaddr_A 0xDF].all
      Instr.wellFormed = true := by decide

theorem test_wellFormed_refuses_sfr_codes :
    [Instr.movA_sfr 0xF8, .movA_sfr 0xFB, .movSfr_A 0xF9, .movSfr_A 0xFE].all (fun i => !i.wellFormed) = true := by decide

theorem test_wellFormed_admits_sfr_codes :
    [Instr.movA_sfr 0xFA, .movA_sfr 0xFC, .movA_sfr 0xFD, .movSfr_A 0xFA, .movSfr_A 0xFC, .movSfr_A 0xFD].all
      Instr.wellFormed = true := by decide

/-! ### Byte moves: 95_test_vectors.md L2.1 -/

theorem test_M1 : commits (at100 [0x50, 0x2A]) (fun t => t.getReg .X == 0x2A && t.pc == 0x00102) = true := by decide
theorem test_M2 : commits (at100 [0x57, 0xFF]) (fun t => t.getReg .H == 0xFF && t.pc == 0x00102) = true := by decide
theorem test_M3 : commits (at100 [0x11, 0x51, 0x7E]) (fun t => t.getReg .A == 0x7E && t.pc == 0x00103) = true := by decide

/-- 40_move.md R84: `r = op[2:0]`. -/
theorem test_R84_registers :
    [(0x52, Reg.C), (0x53, .B), (0x54, .E), (0x55, .D), (0x56, .L)].all (fun (p : Byte × Reg) =>
      commits (at100 [p.1, 0x9C]) (fun t => t.getReg p.2 == 0x9C)) = true := by decide

theorem test_M4 : commits (((at100 [0x60]).setReg .A 0x12).setReg .X 0x34)
    (fun t => t.getReg .A == 0x34 && t.getPair .AX == 0x3434 && t.pc == 0x00101) = true := by decide
theorem test_M5 : commits ((at100 [0x67]).setReg .H 0x9A)
    (fun t => t.getReg .A == 0x9A && t.pc == 0x00101) = true := by decide

/-- 40_move.md R85: `r = op[2:0]`. -/
theorem test_R85_registers :
    [(0x62, Reg.C), (0x63, .B), (0x64, .E), (0x65, .D), (0x66, .L)].all (fun (p : Byte × Reg) =>
      commits ((at100 [p.1]).setReg p.2 0x7F) (fun t => t.getReg .A == 0x7F && t.getReg p.2 == 0x7F)) = true := by decide

theorem test_M6 : commits ((at100 [0x70]).setReg .A 0x12)
    (fun t => t.getReg .X == 0x12 && t.pc == 0x00101) = true := by decide
theorem test_M7 : commits ((at100 [0x72]).setReg .A 0x55)
    (fun t => t.getReg .C == 0x55 && t.pc == 0x00101) = true := by decide

/-- 40_move.md R86: `r = op[2:0]`. -/
theorem test_R86_registers :
    [(0x73, Reg.B), (0x74, .E), (0x75, .D), (0x76, .L), (0x77, .H)].all (fun (p : Byte × Reg) =>
      commits ((at100 [p.1]).setReg .A 0x81) (fun t => t.getReg p.2 == 0x81 && t.getReg .A == 0x81)) = true := by decide

theorem test_M8_M11 :
    commits ((at100 [0x8D, 0x00]).memWrite 0x0FE20 0xAB)
    (fun t => t.getReg .A == 0xAB && t.pc == 0x00102) = true ∧
    commits ((((at100 [0x11, 0x8D, 0x00]).setEs 0x05).memWrite 0x0FE20 0xAB).memWrite 0x5FE20 0x77)
    (fun t => t.getReg .A == 0xAB && t.pc == 0x00103) = true := by decide
theorem test_M9 : commits ((at100 [0xF8, 0xDF]).memWrite 0x0FEFF 0xCD)
    (fun t => t.getReg .C == 0xCD && t.pc == 0x00102) = true := by decide
theorem test_M10 : commits ((at100 [0xE8, 0x10]).memWrite 0x0FE30 0x01)
    (fun t => t.getReg .B == 0x01 && t.pc == 0x00102) = true := by decide
theorem test_M12 : faults (at100 [0x8D, 0xE0]) (.saddrOutOfRange 0xE0 0x00100) = true := by decide
/-- The example of 40_move.md R87. -/
theorem test_R87_example : commits ((at100 [0xD8, 0x05]).memWrite 0x0FE25 0x99)
    (fun t => t.getReg .X == 0x99 && t.pc == 0x00102) = true := by decide
theorem test_M13 : commits ((at100 [0x9D, 0x00]).setReg .A 0x3C)
    (fun t => t.memRead 0x0FE20 == 0x3C && t.pc == 0x00102) = true := by decide
theorem test_M14 : faults (at100 [0x9D, 0xFF]) (.saddrOutOfRange 0xFF 0x00100) = true := by decide
theorem test_M15 : commits ((at100 [0x8F, 0x34, 0x12]).memWrite 0x01234 0x66)
    (fun t => t.getReg .A == 0x66 && t.pc == 0x00103) = true := by decide
theorem test_M16 : commits (((at100 [0x11, 0x8F, 0x34, 0x12]).setEs 0x0F).memWrite 0xF1234 0x77)
    (fun t => t.getReg .A == 0x77 && t.pc == 0x00104) = true := by decide
theorem test_M17 : commits (((at100 [0x11, 0xD9, 0xFF, 0xFF]).setEs 0x1A).memWrite 0xAFFFF 0x5C)
    (fun t => t.getReg .X == 0x5C && t.pc == 0x00104) = true := by decide
/-- 40_move.md R89, its other two opcodes. -/
theorem test_R89_registers :
    [(0xE9, Reg.B), (0xF9, .C)].all (fun (p : Byte × Reg) =>
      commits ((at100 [p.1, 0x00, 0x20]).memWrite 0x02000 0x22) (fun t => t.getReg p.2 == 0x22)) = true := by decide
theorem test_M18 : commitsTwice ((at100 [0x9F, 0x20, 0xFE, 0xD8, 0x00]).setReg .A 0x42)
    (fun t => t.memRead 0x0FE20 == 0x42 && t.getReg .X == 0x42) = true := by decide
theorem test_M19 : commits (((at100 [0x89]).setPair .DE 0x1234).memWrite 0xF1234 0x11)
    (fun t => t.getReg .A == 0x11 && t.pc == 0x00101) = true := by decide
theorem test_M20 : commits ((((at100 [0x11, 0x8B]).setPair .HL 0x1234).setEs 0x02).memWrite 0x21234 0x22)
    (fun t => t.getReg .A == 0x22 && t.pc == 0x00102) = true := by decide
theorem test_M21 : commits (((at100 [0x99]).setPair .DE 0x0010).setReg .A 0x77)
    (fun t => t.memRead 0xF0010 == 0x77 && t.getPair .DE == 0x0010 && t.pc == 0x00101) = true := by decide
theorem test_M22 : commits (((at100 [0x11, 0x9B]).setEs 0x03).setReg .A 0x01)
    (fun t => t.memRead 0x30000 == 0x01 && t.pc == 0x00102) = true := by decide
theorem test_M23 : commits (((at100 [0x8A, 0x02]).setPair .DE 0xFFFF).memWrite 0xF0001 0x09)
    (fun t => t.getReg .A == 0x09) = true := by decide
theorem test_M24 : commits (((at100 [0x8C, 0xFF]).setPair .HL 0x0001).memWrite 0xF0100 0xEE)
    (fun t => t.getReg .A == 0xEE) = true := by decide
theorem test_M25 : commits ((((at100 [0x11, 0x9C, 0x20]).setPair .HL 0xFE00).setEs 0x00).setReg .A 0x42)
    (fun t => t.memRead 0x0FE20 == 0x42 && t.pc == 0x00103) = true := by decide
theorem test_M26 : commits (((at100 [0x9A, 0x34]).setPair .DE 0x1200).setReg .A 0x99)
    (fun t => t.memRead 0xF1234 == 0x99 && t.pc == 0x00102) = true := by decide
theorem test_M27_M28_M29 :
    commits ((at100 [0x8E, 0xFA]).setPsw 0x51)
    (fun t => t.getReg .A == 0x51 && t.psw == 0x51) = true ∧
    commits (at100 [0x8E, 0xFD]) (fun t => t.getReg .A == 0x0F) = true ∧
    commits ((at100 [0x8E, 0xFC]).setReg .A 0x33) (fun t => t.getReg .A == 0x00) = true := by decide
theorem test_M30 : faults ((at100 [0x8E, 0xF8]).setReg .A 0x33) (.unmappedSfr 0xF8 0x00100) = true := by decide
theorem test_M31_M32_M35 :
    commits ((at100 [0x9E, 0xFD]).setReg .A 0x02)
    (fun t => t.es == 0x02 && t.cs == 0x00 && t.pc == 0x00102) = true ∧
    commits ((at100 [0x9E, 0xFA]).setPsw 0xFF) (fun t => t.psw == 0x00) = true ∧
    commits ((at100 [0x11, 0x9E, 0xFC]).setReg .A 0x07)
    (fun t => t.cs == 0x07 && t.pc == 0x00103) = true := by decide
theorem test_M33_M34 :
    faults (at100 [0x9E, 0xFE]) (.unmappedSfr 0xFE 0x00100) = true ∧
    commitsTwice (((at100 [0x9E, 0xFD, 0x11, 0x8F, 0x00, 0x00]).setReg .A 0xF3).memWrite 0x30000 0x44)
    (fun t => t.es == 0xF3 && t.getReg .A == 0x44) = true := by decide

/-! ### Register pairs: L2.2 -/

theorem test_P1 : commits (at100 [0x30, 0x34, 0x12])
    (fun t => t.getPair .AX == 0x1234 && t.getReg .X == 0x34 && t.getReg .A == 0x12 && t.pc == 0x00103) = true := by decide
theorem test_P2 : commits (at100 [0x36, 0x34, 0x12])
    (fun t => t.getPair .HL == 0x1234 && t.getReg .L == 0x34 && t.getReg .H == 0x12) = true := by decide
theorem test_P3 : commits (at100 [0x32, 0xFF, 0xFF]) (fun t => t.getPair .BC == 0xFFFF) = true := by decide
theorem test_P4 : commits (at100 [0x34, 0x00, 0x80])
    (fun t => t.getPair .DE == 0x8000 && t.getReg .E == 0x00 && t.getReg .D == 0x80) = true := by decide
theorem test_P5 : commits ((at100 [0x13]).setPair .BC 0xBEEF)
    (fun t => t.getPair .AX == 0xBEEF && t.pc == 0x00101) = true := by decide
theorem test_P6 : commits ((at100 [0x17]).setPair .HL 0x0102)
    (fun t => t.getReg .A == 0x01 && t.getReg .X == 0x02) = true := by decide
/-- 41_pair.md R98: 0x15 is for DE. -/
theorem test_R98_DE : commits ((at100 [0x15]).setPair .DE 0x0102) (fun t => t.getPair .AX == 0x0102) = true := by decide
theorem test_P7 : commits ((at100 [0x12]).setPair .AX 0x1234)
    (fun t => t.getPair .BC == 0x1234 && t.getReg .B == 0x12 && t.getReg .C == 0x34) = true := by decide
theorem test_P8 : commits ((at100 [0x14]).setPair .AX 0xA5A5) (fun t => t.getPair .DE == 0xA5A5) = true := by decide
/-- The example of 41_pair.md R99. -/
theorem test_R99_example : commits ((at100 [0x16]).setPair .AX 0x1234) (fun t => t.getPair .HL == 0x1234) = true := by decide
theorem test_P9 : commits (((at100 [0xF6]).setPair .AX 0xFFFF).setPsw 0x00)
    (fun t => t.getPair .AX == 0x0000 && t.psw == 0x00) = true := by decide
theorem test_P10 : commits ((at100 [0xF7]).setPair .BC 0xFFFF)
    (fun t => t.getReg .B == 0x00 && t.getReg .C == 0x00) = true := by decide
theorem test_P11 : commits ((at100 [0xE6]).setPair .AX 0xFFFF)
    (fun t => t.getPair .AX == 0x0001 && t.getReg .X == 0x01 && t.getReg .A == 0x00) = true := by decide
theorem test_P12 : commits ((at100 [0xE7]).setPair .BC 0x1234)
    (fun t => t.getPair .BC == 0x0001 && t.getReg .C == 0x01) = true := by decide
theorem test_P13 : commits ((at100 [0x11, 0x30, 0x00, 0x00]).setPair .AX 0xFFFF)
    (fun t => t.getPair .AX == 0x0000 && t.pc == 0x00104) = true := by decide

/-! ### Exchanges: L2.3 -/

theorem test_X1 : commits ((at100 [0x08]).setPair .AX 0x1234)
    (fun t => t.getPair .AX == 0x3412 && t.pc == 0x00101) = true := by decide
theorem test_X2 : commitsTwice ((at100 [0x08, 0x08]).setPair .AX 0x1234) (fun t => t.getPair .AX == 0x1234) = true := by decide
theorem test_X3 : commits (((at100 [0x61, 0x8A]).setReg .A 0x01).setReg .C 0x02)
    (fun t => t.getReg .A == 0x02 && t.getReg .C == 0x01 && t.pc == 0x00102) = true := by decide
theorem test_X4 : commits (((at100 [0x61, 0x8F]).setReg .A 0x01).setReg .H 0xF0)
    (fun t => t.getReg .A == 0xF0 && t.getReg .H == 0x01) = true := by decide
/-- 42_exchange.md R103: `r = op2[2:0]`. -/
theorem test_R103_registers :
    [(0x8B, Reg.B), (0x8C, .E), (0x8D, .D), (0x8E, .L)].all (fun (p : Byte × Reg) =>
      commits (((at100 [0x61, p.1]).setReg .A 0x01).setReg p.2 0xF0)
        (fun t => t.getReg .A == 0xF0 && t.getReg p.2 == 0x01)) = true := by decide
theorem test_X6 : commits (((at100 [0x33]).setPair .AX 0x1111).setPair .BC 0x2222)
    (fun t => t.getPair .AX == 0x2222 && t.getPair .BC == 0x1111) = true := by decide
theorem test_X7 : commits (((at100 [0x35]).setPair .AX 0x1111).setPair .DE 0xABCD)
    (fun t => t.getPair .AX == 0xABCD && t.getPair .DE == 0x1111) = true := by decide
theorem test_X8 : commits (((at100 [0x37]).setPair .AX 0x00FF).setPair .HL 0xFF00)
    (fun t => t.getPair .AX == 0xFF00 && t.getPair .HL == 0x00FF) = true := by decide
theorem test_X9 : faults (at100 [0x61, 0x88]) (.unknownSecondaryOpcode 0x61 0x88 0x00100 false) = true := by decide

/-! ### The flag algorithm and the ADD family: L2.4, L2.5 -/

/-- The table of L2.4: a, b, the result, and CY, AC and Z. -/
def flagTable : List (Byte × Byte × Byte × Bool × Bool × Bool) :=
  [(0xFF, 0x01, 0x00, true, true, true), (0x03, 0x05, 0x08, false, false, false), (0x00, 0x00, 0x00, false, false, true),
   (0x0F, 0x01, 0x10, false, true, false), (0x08, 0x08, 0x10, false, true, false), (0x0E, 0x01, 0x0F, false, false, false),
   (0x80, 0x80, 0x00, true, false, true), (0xF0, 0x10, 0x00, true, false, true), (0xF0, 0x0F, 0xFF, false, false, false),
   (0x7F, 0x01, 0x80, false, true, false), (0xFF, 0xFF, 0xFE, true, true, false), (0x88, 0x88, 0x10, true, true, false),
   (0x01, 0xFF, 0x00, true, true, true), (0x09, 0x07, 0x10, false, true, false)]

theorem test_L2_4 : flagTable.all (fun r =>
    decide ((addFlags r.1 r.2.1 State.reset).1 = r.2.2.1 ∧ flags (addFlags r.1 r.2.1 State.reset).2 = r.2.2.2)) = true := by
  decide

theorem test_A1 : commits ((at100 [0x0C, 0x05]).setReg .A 0x03)
    (fun t => t.getReg .A == 0x08 && flags t == (false, false, false) && t.pc == 0x00102) = true := by decide
theorem test_A3 : commits ((at100 [0x0C, 0x00]).setPsw 0x81)
    (fun t => t.getReg .A == 0x00 && t.psw == 0xC0 && t.ie && !t.isp0 && !t.isp1) = true := by decide
theorem test_A6 : commits (((at100 [0x61, 0x0A]).setReg .A 0xFF).setReg .C 0x01)
    (fun t => t.getReg .A == 0x00 && flags t == (true, true, true) && t.getReg .C == 0x01 && t.pc == 0x00102) = true := by
  decide
theorem test_A7 : commits (((at100 [0x61, 0x08]).setReg .A 0x10).setReg .X 0x20)
    (fun t => t.getReg .A == 0x30 && flags t == (false, false, false) && t.getReg .X == 0x20) = true := by decide
theorem test_A8 : commits (((at100 [0x61, 0x0F]).setReg .A 0x80).setReg .H 0x80)
    (fun t => t.getReg .A == 0x00 && flags t == (true, false, true)) = true := by decide
/-- 43_arith.md R107: `r = op2[2:0]`, and `r` is unchanged. -/
theorem test_R107_registers :
    [(0x0B, Reg.B), (0x0C, .E), (0x0D, .D), (0x0E, .L)].all (fun (p : Byte × Reg) =>
      commits (((at100 [0x61, p.1]).setReg .A 0x01).setReg p.2 0x0F)
        (fun t => t.getReg .A == 0x10 && t.getReg p.2 == 0x0F && flags t == (false, true, false))) = true := by decide
theorem test_A9 : commits ((at100 [0x61, 0x01]).setReg .A 0x88)
    (fun t => t.getReg .A == 0x10 && flags t == (true, true, false)) = true := by decide
theorem test_A10 : commits ((at100 [0x61, 0x01]).setReg .A 0x80)
    (fun t => t.getReg .A == 0x00 && flags t == (true, false, true)) = true := by decide
theorem test_A11 : commits (((at100 [0x61, 0x03]).setReg .B 0x0F).setReg .A 0x01)
    (fun t => t.getReg .B == 0x10 && flags t == (false, true, false) && t.getReg .A == 0x01) = true := by decide
theorem test_A12 : commits (((at100 [0x61, 0x00]).setReg .X 0xFF).setReg .A 0x01)
    (fun t => t.getReg .X == 0x00 && flags t == (true, true, true) && t.getReg .A == 0x01) = true := by decide
theorem test_A13 : commits (((at100 [0x61, 0x06]).setReg .L 0x40).setReg .A 0x40)
    (fun t => t.getReg .L == 0x80 && flags t == (false, false, false)) = true := by decide
/-- 43_arith.md R108: `r = op2[2:0]`, and A is unchanged. -/
theorem test_R108_registers :
    [(0x02, Reg.C), (0x04, .E), (0x05, .D), (0x07, .H)].all (fun (p : Byte × Reg) =>
      commits (((at100 [0x61, p.1]).setReg .A 0x01).setReg p.2 0xFF)
        (fun t => t.getReg p.2 == 0x00 && t.getReg .A == 0x01 && flags t == (true, true, true))) = true := by decide
theorem test_A14 : faults (at100 [0x61, 0x09]) (.unknownSecondaryOpcode 0x61 0x09 0x00100 false) = true := by decide

/-! ### Control: L2.6 -/

theorem test_B3 : commits (((placed 0x20000 [0x61, 0xCB]).setPair .AX 0x1234).setCs 0x02)
    (fun t => t.pc == 0x01234) = true := by decide
theorem test_B6 : commits ((placed 0x00201 [0x61, 0xCB]).setPair .AX 0x1235) (fun t => t.pc == 0x01235) = true := by decide
theorem test_N2 : commits (at100 [0x11, 0x00]) (fun t => t.pc == 0x00102) = true := by decide
theorem test_N3 : commits { State.reset with pc := 0xFFFFF } (fun t => t.pc == 0x00000) = true := by decide

/-! ### Decoder, fetch and errors: L2.7 -/

theorem test_E1 : faults (State.reset.placeBytes 0x00000 [0xFF]) (.unknownOpcode 0xFF 0x00000 false) = true := by decide
theorem test_E2 : faults (placed 0x00010 [0x11, 0xFF]) (.unknownOpcode 0xFF 0x00010 true) = true := by decide
theorem test_E3 : faults (at100 [0x11, 0x11, 0x00]) (.unknownOpcode 0x11 0x00100 true) = true := by decide
theorem test_E4 : faults (at100 [0x11, 0x61, 0x88]) (.unknownSecondaryOpcode 0x61 0x88 0x00100 true) = true := by decide
theorem test_E5_E6_E7 : [0x31, 0x71, 0x01].all (fun (b : Byte) =>
    faults (at100 [b, 0x00]) (.unknownOpcode b 0x00100 false)) = true := by decide
theorem test_E8 : commits (placed 0xFFFFE [0x30, 0x34, 0x12])
    (fun t => t.getPair .AX == 0x1234 && t.pc == 0x00001) = true := by decide
theorem test_E9 : commits (placed 0xFFFFF [0x11, 0x00]) (fun t => t.pc == 0x00001 && !t.prefixActive) = true := by decide
theorem test_E10 : commitsTwice
    (((at100 [0x11, 0x9F, 0x34, 0x12, 0x9F, 0x34, 0x12]).setEs 0x02).setReg .A 0x5A)
    (fun t => t.memRead 0x21234 == 0x5A && t.memRead 0x01234 == 0x5A) = true := by decide
theorem test_E11 : commitsTwice (((at100 [0x11, 0x00, 0x9F, 0x34, 0x12]).setEs 0x02).setReg .A 0x5A)
    (fun t => t.memRead 0x21234 == 0x00 && t.memRead 0x01234 == 0x5A) = true := by decide
theorem test_E12 : faults ((at100 [0x11, 0x8E, 0xF8]).setReg .A 0x33) (.unmappedSfr 0xF8 0x00100) = true := by decide
theorem test_E13 : faults (at100 [0x11, 0x9D, 0xE5]) (.saddrOutOfRange 0xE5 0x00100) = true := by decide

/-- 60_exceptions.md R123: an error leaves the state as it was, the pc included. -/
theorem test_E2_rolls_back :
    singleCycle (placed 0x00010 [0x11, 0xFF]) = (.err (.unknownOpcode 0xFF 0x00010 true), placed 0x00010 [0x11, 0xFF]) := by
  decide

/-- The codes of 60_exceptions.md R115. -/
theorem test_error_codes :
    (Fault.unknownOpcode 0 0 false).code = 1 ∧ (Fault.unknownSecondaryOpcode 0x61 0 0 false).code = 2 ∧
    (Fault.unmappedSfr 0 0).code = 3 ∧ (Fault.saddrOutOfRange 0xE0 0).code = 4 ∧ (Fault.outOfBounds 0).code = 5 := by decide

/-- A reset value of each kind: 10_state.md R36. -/
theorem test_reset : State.reset.pc = 0x00000 ∧ State.reset.es = 0x0F ∧ State.reset.cs = 0x00 ∧
    State.reset.memRead 0xFFFFF = 0x00 ∧ State.reset.prefixActive = false := by decide

/-! ### Witnesses: a state and operands that meet a statement's hypotheses together, one for each clause

The statements without a hypothesis on the state or the operands (their rows are listed in them) need none:
`ResetMeetsTheInvariant`, `NopOnlyAdvancesThePc` and the like. -/

theorem witness_DecodeReadsBackEveryEncoding : (true = true → Instr.movAbs_A 0xFFFF ≠ .esPrefix) ∧
    (false = true → Instr.esPrefix ≠ .esPrefix) := by decide
theorem witness_DecodeAcceptsOnlyEncodings : decode true [0x9F, 0x34, 0x12, 0xFF] = .ok (.movAbs_A 0x1234, [0xFF]) := by rfl
theorem witness_StepRunsTheDecodedInstruction : (at100 [0x9F, 0x34, 0x12]).prefixActive = false ∧
    (at100 [0x9F, 0x34, 0x12]).peek 0 ≠ 0x11 ∧ decodeAt (at100 [0x9F, 0x34, 0x12]) = .ok (.movAbs_A 0x1234, 3) :=
  ⟨rfl, by decide, by rfl⟩
theorem witness_StepRunsThePrefixedInstruction : (at100 [0x11, 0x8B]).prefixActive = false ∧
    (at100 [0x11, 0x8B]).peek 0 = 0x11 ∧
    decodeAt ((at100 [0x11, 0x8B]).consume 1).toExtended = .ok (.movA_atHL, 1) := ⟨rfl, by decide, by rfl⟩
theorem witness_FetchConsumesTheEncoding : decodeAt (placed 0xFFFFE [0x30, 0x34, 0x12]) = .ok (.movwAX_word 0x1234, 3) := by
  rfl

/-- One state for each of the four clauses. -/
theorem witness_UnadmittedBytesAreUnknownOpcodes :
    ((at100 [0xFF]).prefixActive = false ∧ ¬ admittedFirst ((at100 [0xFF]).peek 0) ∧ (at100 [0xFF]).peek 0 ≠ 0x11 ∧
      (at100 [0xFF]).peek 0 ≠ 0x61) ∧
    ((at100 [0x61, 0x09]).prefixActive = false ∧ (at100 [0x61, 0x09]).peek 0 = 0x61 ∧
      ¬ admittedSecond ((at100 [0x61, 0x09]).peek 1)) ∧
    ((at100 [0x11, 0x11]).prefixActive = false ∧ (at100 [0x11, 0x11]).peek 0 = 0x11 ∧
      ¬ admittedFirst ((at100 [0x11, 0x11]).peek 1) ∧ (at100 [0x11, 0x11]).peek 1 ≠ 0x61) ∧
    ((at100 [0x11, 0x61, 0x88]).prefixActive = false ∧ (at100 [0x11, 0x61, 0x88]).peek 0 = 0x11 ∧
      (at100 [0x11, 0x61, 0x88]).peek 1 = 0x61 ∧ ¬ admittedSecond ((at100 [0x11, 0x61, 0x88]).peek 2)) := by
  unfold admittedFirst admittedSecond
  refine ⟨⟨?_, ?_, ?_, ?_⟩, ⟨?_, ?_, ?_⟩, ⟨?_, ?_, ?_, ?_⟩, ?_, ?_, ?_, ?_⟩ <;> decide

theorem witness_EveryCycleEndsInNormal : (∃ t, step (at100 [0x11, 0x00]) = .next t) ∧
    (at100 [0x11, 0xFF]).prefixActive = false := ⟨⟨_, rfl⟩, rfl⟩
theorem witness_StepKeepsTheInvariant :
    ((at100 [0x11, 0x9B]).prefixActive = false ∧ (at100 [0x11, 0x9B]).mem.wf) ∧
    ∃ t, step (at100 [0x11, 0x9B]) = .next t := ⟨by decide, _, rfl⟩
theorem witness_ErrorsNameTheCycleStart : (at100 [0x11, 0x8E, 0xF8]).prefixActive = false ∧
    step (at100 [0x11, 0x8E, 0xF8]) = .fault (.unmappedSfr 0xF8 0x00100) := ⟨rfl, rfl⟩
theorem witness_ExecCompletesExactlyOnCheckedOperands : (Instr.esPrefix = .esPrefix → State.reset.prefixActive = false) ∧
    completes .esPrefix State.reset = true ∧ completes (.movA_saddr 0xDF) State.reset = true ∧
    completes (.movA_saddr 0xE0) State.reset = false := by decide
theorem witness_ShortAddressOutOfRangeIsAnError :
    Instr.movSaddr_A ∈ ([.movA_saddr, .movX_saddr, .movB_saddr, .movC_saddr, .movSaddr_A] : List (Byte → Instr)) ∧
    0xE0 ≤ (0xE0 : Byte).toNat ∧ 0xE0 ≤ (0xFF : Byte).toNat := ⟨by simp, by decide⟩
theorem witness_MovToShortAddressStoresInTheWindow : completes (.movSaddr_A 0x00) State.reset = true ∧
    completes (.movSaddr_A 0xDF) State.reset = true := by decide

/-! The last row of each list that a statement ranges over, and for MOV r,saddr the ends of its operand's domain. -/

theorem witness_MovImmediateLoadsTheRegister : ((.H, 0x57, .movH_byte) : Reg × Byte × (Byte → Instr)) ∈
    ([(.X, 0x50, .movX_byte), (.A, 0x51, .movA_byte), (.C, 0x52, .movC_byte), (.B, 0x53, .movB_byte),
      (.E, 0x54, .movE_byte), (.D, 0x55, .movD_byte), (.L, 0x56, .movL_byte), (.H, 0x57, .movH_byte)] :
      List (Reg × Byte × (Byte → Instr))) := by simp
theorem witness_MovCopiesBetweenAAndTheRegister : ((.H, .A, 0x77, .movH_A) : Reg × Reg × Byte × Instr) ∈
    ([(.A, .X, 0x60, .movA_X), (.A, .C, 0x62, .movA_C), (.A, .B, 0x63, .movA_B), (.A, .E, 0x64, .movA_E),
      (.A, .D, 0x65, .movA_D), (.A, .L, 0x66, .movA_L), (.A, .H, 0x67, .movA_H), (.X, .A, 0x70, .movX_A),
      (.C, .A, 0x72, .movC_A), (.B, .A, 0x73, .movB_A), (.E, .A, 0x74, .movE_A), (.D, .A, 0x75, .movD_A),
      (.L, .A, 0x76, .movL_A), (.H, .A, 0x77, .movH_A)] : List (Reg × Reg × Byte × Instr)) := by simp
theorem witness_MovFromShortAddressLoadsTheWindow : ((.C, 0xF8, .movC_saddr) : Reg × Byte × (Byte → Instr)) ∈
    ([(.A, 0x8D, .movA_saddr), (.X, 0xD8, .movX_saddr), (.B, 0xE8, .movB_saddr), (.C, 0xF8, .movC_saddr)] :
      List (Reg × Byte × (Byte → Instr))) ∧
    (0x00 : Byte).toNat ≤ 0xDF ∧ (0xDF : Byte).toNat ≤ 0xDF := ⟨by simp, by decide⟩
theorem witness_MovFromAbsoluteLoadsTheByte : ((.C, 0xF9, .movC_abs) : Reg × Byte × (Word → Instr)) ∈
    ([(.A, 0x8F, .movA_abs), (.X, 0xD9, .movX_abs), (.B, 0xE9, .movB_abs), (.C, 0xF9, .movC_abs)] :
      List (Reg × Byte × (Word → Instr))) := by simp
theorem witness_MovFromIndirectLoadsTheByte : ((.HL, 0x8B, .movA_atHL) : Pair × Byte × Instr) ∈
    ([(.DE, 0x89, .movA_atDE), (.HL, 0x8B, .movA_atHL)] : List (Pair × Byte × Instr)) := by simp
theorem witness_MovToIndirectStoresTheByte : ((.HL, 0x9B, .movAtHL_A) : Pair × Byte × Instr) ∈
    ([(.DE, 0x99, .movAtDE_A), (.HL, 0x9B, .movAtHL_A)] : List (Pair × Byte × Instr)) := by simp
theorem witness_MovFromDisplacedLoadsTheByte : ((.HL, 0x8C, .movA_atHLdisp) : Pair × Byte × (Byte → Instr)) ∈
    ([(.DE, 0x8A, .movA_atDEdisp), (.HL, 0x8C, .movA_atHLdisp)] : List (Pair × Byte × (Byte → Instr))) := by simp
theorem witness_MovToDisplacedStoresTheByte : ((.HL, 0x9C, .movAtHLdisp_A) : Pair × Byte × (Byte → Instr)) ∈
    ([(.DE, 0x9A, .movAtDEdisp_A), (.HL, 0x9C, .movAtHLdisp_A)] : List (Pair × Byte × (Byte → Instr))) := by simp
theorem witness_MovwImmediateLoadsThePair : ((.HL, 0x36, .movwHL_word) : Pair × Byte × (Word → Instr)) ∈
    ([(.AX, 0x30, .movwAX_word), (.BC, 0x32, .movwBC_word), (.DE, 0x34, .movwDE_word), (.HL, 0x36, .movwHL_word)] :
      List (Pair × Byte × (Word → Instr))) := by simp
theorem witness_MovwCopiesBetweenAXAndThePair : ((.HL, .AX, 0x16, .movwHL_AX) : Pair × Pair × Byte × Instr) ∈
    ([(.AX, .BC, 0x13, .movwAX_BC), (.AX, .DE, 0x15, .movwAX_DE), (.AX, .HL, 0x17, .movwAX_HL),
      (.BC, .AX, 0x12, .movwBC_AX), (.DE, .AX, 0x14, .movwDE_AX), (.HL, .AX, 0x16, .movwHL_AX)] :
      List (Pair × Pair × Byte × Instr)) := by simp
theorem witness_ClrwAndOnewSetThePair : ((.BC, 0x0001, 0xE7, .onewBC) : Pair × Word × Byte × Instr) ∈
    ([(.AX, 0x0000, 0xF6, .clrwAX), (.BC, 0x0000, 0xF7, .clrwBC), (.AX, 0x0001, 0xE6, .onewAX),
      (.BC, 0x0001, 0xE7, .onewBC)] : List (Pair × Word × Byte × Instr)) := by simp
theorem witness_XchSwapsAWithTheRegister : ((.H, [0x61, 0x8F], .xchA_H) : Reg × List Byte × Instr) ∈
    ([(.X, [0x08], .xchA_X), (.C, [0x61, 0x8A], .xchA_C), (.B, [0x61, 0x8B], .xchA_B), (.E, [0x61, 0x8C], .xchA_E),
      (.D, [0x61, 0x8D], .xchA_D), (.L, [0x61, 0x8E], .xchA_L), (.H, [0x61, 0x8F], .xchA_H)] :
      List (Reg × List Byte × Instr)) := by simp
theorem witness_XchwSwapsAXWithThePair : ((.HL, 0x37, .xchwAX_HL) : Pair × Byte × Instr) ∈
    ([(.BC, 0x33, .xchwAX_BC), (.DE, 0x35, .xchwAX_DE), (.HL, 0x37, .xchwAX_HL)] : List (Pair × Byte × Instr)) := by simp
theorem witness_AddRegisterAddsToA : ((.H, 0x0F, .addA_H) : Reg × Byte × Instr) ∈
    ([(.X, 0x08, .addA_X), (.C, 0x0A, .addA_C), (.B, 0x0B, .addA_B), (.E, 0x0C, .addA_E), (.D, 0x0D, .addA_D),
      (.L, 0x0E, .addA_L), (.H, 0x0F, .addA_H)] : List (Reg × Byte × Instr)) := by simp
theorem witness_AddAccumulatorAddsToTheRegister : ((.H, 0x07, .addH_A) : Reg × Byte × Instr) ∈
    ([(.X, 0x00, .addX_A), (.A, 0x01, .addA_A), (.C, 0x02, .addC_A), (.B, 0x03, .addB_A), (.E, 0x04, .addE_A),
      (.D, 0x05, .addD_A), (.L, 0x06, .addL_A), (.H, 0x07, .addH_A)] : List (Reg × Byte × Instr)) := by simp

/-- Each mapped code, and the codes beside them. -/
theorem witness_MovFromSfrReadsTheRegister_MovToSfrWritesTheRegister :
    [0xFA, 0xFC, 0xFD].all (fun (c : Byte) =>
      completes (.movA_sfr c) State.reset && completes (.movSfr_A c) State.reset) = true ∧
    [0x00, 0xF9, 0xFB, 0xFE, 0xFF].all (fun (c : Byte) =>
      !completes (.movA_sfr c) State.reset && !completes (.movSfr_A c) State.reset) = true := by decide
theorem witness_PrefixEntersExtendedPrefix : State.reset.prefixActive = false ∧ completes .esPrefix State.reset = true ∧
    State.reset.toExtended.prefixActive = true ∧ completes .esPrefix State.reset.toExtended = false := by decide

/-- Both defaults and a prefixed access whose ES has its high bits set: 20_memory.md R42, R43, 10_state.md R31. -/
theorem witness_ResolveForThePhysicalAddress :
    resolve .absolute 0x1234 State.reset = 0x01234 ∧ resolve .indirect 0x1234 State.reset = 0xF1234 ∧
    resolve .absolute 0xFFFF (State.reset.setEs 0x1A).toExtended = 0xAFFFF ∧
    resolve .indirect 0x1234 (State.reset.setEs 0x02).toExtended = 0x21234 := by decide
/-- The ends of the domain: 20_memory.md R45. -/
theorem witness_DisplacedAndShortAddresses : (0x00 : Byte).toNat ≤ 0xDF ∧ saddrAddr 0x00 = 0x0FE20 ∧
    (0xDF : Byte).toNat ≤ 0xDF ∧ saddrAddr 0xDF = 0x0FEFF := by decide
theorem witness_WrittenByteIsReadBack : State.reset.pc + BitVec.ofNat 20 2 = 0x00002 ∧
    State.reset.pc + BitVec.ofNat 20 3 ≠ 0x00002 ∧ (0xFFFFF : Addr) ≠ 0x00002 := by decide
theorem witness_PrefixMattersOnlyToMemoryOperands : ¬ consultsPrefix (.movA_saddr 0xDF) ∧
    Instr.movA_saddr 0xDF ≠ .esPrefix ∧ ∃ t, exec (.movA_saddr 0xDF) State.reset = .next t :=
  ⟨by simp [consultsPrefix], by decide, _, rfl⟩
theorem witness_PcAdvancesByTheEncodedLength : (∃ t, exec .brAX State.reset = .next t) ∧
    ∃ t, exec (.movAbs_A 0xFFFF) { State.reset with pc := 0xFFFFF } = .next t := ⟨⟨_, rfl⟩, _, rfl⟩
theorem witness_RegistersChangeOnlyWhereListed : ∃ t, exec .xchwAX_HL State.reset = .next t := ⟨_, rfl⟩

/-- A store and an instruction that stores nothing. -/
theorem witness_OnlyStoresChangeMemory :
    ((∃ t, exec (.movSaddr_A 0xDF) State.reset = .next t) ∧ storeTarget (.movSaddr_A 0xDF) State.reset = some 0x0FEFF) ∧
    (∃ t, exec .movA_atDE State.reset = .next t) ∧ storeTarget .movA_atDE State.reset = none :=
  ⟨⟨⟨_, rfl⟩, by decide⟩, ⟨_, rfl⟩, rfl⟩

/-- An ADD and an instruction that is none. -/
theorem witness_PswChangesOnlyByAddOrSfrWrite :
    ((∃ t, exec .addH_A State.reset = .next t) ∧ Instr.addH_A ≠ .movSfr_A 0xFA) ∧
    (∃ t, exec .clrwAX State.reset = .next t) ∧ Instr.clrwAX ≠ .movSfr_A 0xFA ∧ ¬ isAdd .clrwAX :=
  ⟨⟨⟨_, rfl⟩, by decide⟩, ⟨_, rfl⟩, by decide, by simp [isAdd]⟩

/-- An instruction that completes and one that does not. -/
theorem witness_FlagsDecideNothing : Instr.addA_byte 0xFF ≠ .movA_sfr 0xFA ∧
    (∃ t, exec (.addA_byte 0xFF) State.reset = .next t) ∧ Instr.movA_sfr 0xFB ≠ .movA_sfr 0xFA ∧
    exec (.movA_sfr 0xFB) State.reset = .fault (.unmappedSfr 0xFB 0x00000) :=
  ⟨by decide, ⟨_, rfl⟩, by decide, rfl⟩
theorem witness_StackPointerIsNeverUsed : ∃ t, exec (.movSfr_A 0xFA) State.reset = .next t := ⟨_, rfl⟩

/-- Both clauses. -/
theorem witness_CsIsOnlyStored : (∃ t, exec .brAX State.reset = .next t) ∧ Instr.brAX ≠ .movSfr_A 0xFC ∧
    Instr.brAX ≠ .movA_sfr 0xFC := ⟨⟨_, rfl⟩, by decide⟩

/-- Both clauses, the second with and without a memory operand. -/
theorem witness_EsMattersOnlyUnderThePrefix :
    ((∃ t, exec .movA_atDE State.reset = .next t) ∧ Instr.movA_atDE ≠ .movSfr_A 0xFD ∧ Instr.movA_atDE ≠ .movA_sfr 0xFD ∧
      State.reset.prefixActive = false) ∧
    (∃ t, exec (.movA_saddr 0x00) State.reset.toExtended = .next t) ∧ Instr.movA_saddr 0x00 ≠ .movSfr_A 0xFD ∧
    Instr.movA_saddr 0x00 ≠ .movA_sfr 0xFD ∧ ¬ consultsPrefix (.movA_saddr 0x00) :=
  ⟨⟨⟨_, rfl⟩, by decide⟩, ⟨_, rfl⟩, by decide, by decide, by simp [consultsPrefix]⟩

/-- MOV !0103H,A at 0x00100 stores where the next cycle fetches. -/
theorem witness_StoreIsSeenByTheNextFetch :
    (at100 [0x9F, 0x03, 0x01]).prefixActive = false ∧ (at100 [0x9F, 0x03, 0x01]).peek 0 ≠ 0x11 ∧
    decodeAt (at100 [0x9F, 0x03, 0x01]) = .ok (.movAbs_A 0x0103, 3) ∧
    storeTarget (.movAbs_A 0x0103) (at100 [0x9F, 0x03, 0x01]) = some 0x00103 ∧
    commits (at100 [0x9F, 0x03, 0x01]) (fun t => t.pc + BitVec.ofNat 20 0 == 0x00103) = true :=
  ⟨rfl, by decide, rfl, by decide, by decide⟩

/-- A pre-load that ends at 0xFFFFF, and one that would pass it: 60_exceptions.md R132. -/
theorem witness_PreloadWritesExactlyItsRange : 0xFFFFE + [(0x01 : Byte), 0x02].length ≤ 2 ^ 20 ∧
    ¬ 0xFFFFF + [(0x01 : Byte), 0x02].length ≤ 2 ^ 20 ∧
    (match preload 0xFFFFE [0x01, 0x02] State.reset with
      | .next t => t.memRead 0xFFFFF == 0x02 && t.memRead 0x00000 == 0x00
      | _ => false) = true := by decide

end Sys2Proof.Tests
end

section
/-! SUPPORT. What an instruction commits, said once: every completed instruction moves the pc past its encoding and then
makes the updates that `updatesOf` lists for it, in order (`exec_eq`). The frame of an instruction, and which fields it
does not read, are then facts about that list. -/

namespace Sys2Proof.Machine

/-! ### Updates -/

/-- One write to one field of the Machine State. -/
inductive Update where
  | reg (r : Reg) (v : Byte)
  | mem (a : Addr) (v : Byte)
  | psw (v : Byte)
  /-- The flags of an addition of `b` to `a`, over whatever PSW stands there: 43_arith.md R105. -/
  | flags (a b : Byte)
  | cs (v : Byte)
  | es (v : Byte)
  | pc (target : Addr)
  | extended

/-- The state after one update. -/
def Update.apply : Update → State → State
  | .reg r v, s => s.setReg r v
  | .mem a v, s => s.memWrite a v
  | .psw v, s => s.setPsw v
  | .flags a b, s => (addFlags a b s).2
  | .cs v, s => s.setCs v
  | .es v, s => s.setEs v
  | .pc target, s => s.jump target
  | .extended, s => s.toExtended

/-- The state after a list of updates, the first one made first. -/
def State.commit (s : State) (us : List Update) : State := us.foldl (fun r u => u.apply r) s

/-- `RP[j] <- w` as the writes of its two bytes: 10_state.md R22. -/
def pairUpdates (p : Pair) (w : Word) : List Update := [.reg p.lo (lowByte w), .reg p.hi (highByte w)]

/-- `R[dst] <- AddFlags(R[dst], b)`: 43_arith.md R105. -/
def addUpdates (dst : Reg) (b : Byte) (s : State) : List Update :=
  [.flags (s.getReg dst) b, .reg dst (addResult (s.getReg dst) b)]

/-- A byte into the CPU-internal register of a mapped code: 20_memory.md R47. -/
def sfrUpdates (code v : Byte) : List Update :=
  if code = 0xFA then [.psw v] else if code = 0xFC then [.cs v] else if code = 0xFD then [.es v] else []

/-- What each instruction writes, read from the state at its first opcode byte, the pc's advance apart. -/
def updatesOf (i : Instr) (s : State) : List Update :=
  match i with
  | .nop => []
  | .esPrefix => [.extended]
  | .brAX => [.pc ((s.getPair .AX).setWidth 20)]
  | .movX_byte imm => [.reg .X imm]
  | .movA_byte imm => [.reg .A imm]
  | .movC_byte imm => [.reg .C imm]
  | .movB_byte imm => [.reg .B imm]
  | .movE_byte imm => [.reg .E imm]
  | .movD_byte imm => [.reg .D imm]
  | .movL_byte imm => [.reg .L imm]
  | .movH_byte imm => [.reg .H imm]
  | .movA_X => [.reg .A (s.getReg .X)]
  | .movA_C => [.reg .A (s.getReg .C)]
  | .movA_B => [.reg .A (s.getReg .B)]
  | .movA_E => [.reg .A (s.getReg .E)]
  | .movA_D => [.reg .A (s.getReg .D)]
  | .movA_L => [.reg .A (s.getReg .L)]
  | .movA_H => [.reg .A (s.getReg .H)]
  | .movX_A => [.reg .X (s.getReg .A)]
  | .movC_A => [.reg .C (s.getReg .A)]
  | .movB_A => [.reg .B (s.getReg .A)]
  | .movE_A => [.reg .E (s.getReg .A)]
  | .movD_A => [.reg .D (s.getReg .A)]
  | .movL_A => [.reg .L (s.getReg .A)]
  | .movH_A => [.reg .H (s.getReg .A)]
  | .movA_saddr saddr => [.reg .A (s.memRead (saddrAddr saddr))]
  | .movX_saddr saddr => [.reg .X (s.memRead (saddrAddr saddr))]
  | .movB_saddr saddr => [.reg .B (s.memRead (saddrAddr saddr))]
  | .movC_saddr saddr => [.reg .C (s.memRead (saddrAddr saddr))]
  | .movA_abs addr => [.reg .A (s.memRead (resolve .absolute addr s))]
  | .movX_abs addr => [.reg .X (s.memRead (resolve .absolute addr s))]
  | .movB_abs addr => [.reg .B (s.memRead (resolve .absolute addr s))]
  | .movC_abs addr => [.reg .C (s.memRead (resolve .absolute addr s))]
  | .movA_atDE => [.reg .A (s.memRead (resolve .indirect (s.getPair .DE) s))]
  | .movA_atHL => [.reg .A (s.memRead (resolve .indirect (s.getPair .HL) s))]
  | .movA_atDEdisp disp => [.reg .A (s.memRead (resolve .indirect (displaced .DE disp s) s))]
  | .movA_atHLdisp disp => [.reg .A (s.memRead (resolve .indirect (displaced .HL disp s) s))]
  | .movSaddr_A saddr => [.mem (saddrAddr saddr) (s.getReg .A)]
  | .movAbs_A addr => [.mem (resolve .absolute addr s) (s.getReg .A)]
  | .movAtDE_A => [.mem (resolve .indirect (s.getPair .DE) s) (s.getReg .A)]
  | .movAtHL_A => [.mem (resolve .indirect (s.getPair .HL) s) (s.getReg .A)]
  | .movAtDEdisp_A disp => [.mem (resolve .indirect (displaced .DE disp s) s) (s.getReg .A)]
  | .movAtHLdisp_A disp => [.mem (resolve .indirect (displaced .HL disp s) s) (s.getReg .A)]
  | .movA_sfr sfr => (sfrRead sfr s).toList.map (.reg .A)
  | .movSfr_A sfr => sfrUpdates sfr (s.getReg .A)
  | .movwAX_word imm => pairUpdates .AX imm
  | .movwBC_word imm => pairUpdates .BC imm
  | .movwDE_word imm => pairUpdates .DE imm
  | .movwHL_word imm => pairUpdates .HL imm
  | .movwAX_BC => pairUpdates .AX (s.getPair .BC)
  | .movwAX_DE => pairUpdates .AX (s.getPair .DE)
  | .movwAX_HL => pairUpdates .AX (s.getPair .HL)
  | .movwBC_AX => pairUpdates .BC (s.getPair .AX)
  | .movwDE_AX => pairUpdates .DE (s.getPair .AX)
  | .movwHL_AX => pairUpdates .HL (s.getPair .AX)
  | .onewAX => pairUpdates .AX 0x0001
  | .onewBC => pairUpdates .BC 0x0001
  | .clrwAX => pairUpdates .AX 0x0000
  | .clrwBC => pairUpdates .BC 0x0000
  | .xchA_X => [.reg .A (s.getReg .X), .reg .X (s.getReg .A)]
  | .xchA_C => [.reg .A (s.getReg .C), .reg .C (s.getReg .A)]
  | .xchA_B => [.reg .A (s.getReg .B), .reg .B (s.getReg .A)]
  | .xchA_E => [.reg .A (s.getReg .E), .reg .E (s.getReg .A)]
  | .xchA_D => [.reg .A (s.getReg .D), .reg .D (s.getReg .A)]
  | .xchA_L => [.reg .A (s.getReg .L), .reg .L (s.getReg .A)]
  | .xchA_H => [.reg .A (s.getReg .H), .reg .H (s.getReg .A)]
  | .xchwAX_BC => pairUpdates .AX (s.getPair .BC) ++ pairUpdates .BC (s.getPair .AX)
  | .xchwAX_DE => pairUpdates .AX (s.getPair .DE) ++ pairUpdates .DE (s.getPair .AX)
  | .xchwAX_HL => pairUpdates .AX (s.getPair .HL) ++ pairUpdates .HL (s.getPair .AX)
  | .addA_byte imm => addUpdates .A imm s
  | .addA_X => addUpdates .A (s.getReg .X) s
  | .addA_C => addUpdates .A (s.getReg .C) s
  | .addA_B => addUpdates .A (s.getReg .B) s
  | .addA_E => addUpdates .A (s.getReg .E) s
  | .addA_D => addUpdates .A (s.getReg .D) s
  | .addA_L => addUpdates .A (s.getReg .L) s
  | .addA_H => addUpdates .A (s.getReg .H) s
  | .addX_A => addUpdates .X (s.getReg .A) s
  | .addA_A => addUpdates .A (s.getReg .A) s
  | .addC_A => addUpdates .C (s.getReg .A) s
  | .addB_A => addUpdates .B (s.getReg .A) s
  | .addE_A => addUpdates .E (s.getReg .A) s
  | .addD_A => addUpdates .D (s.getReg .A) s
  | .addL_A => addUpdates .L (s.getReg .A) s
  | .addH_A => addUpdates .H (s.getReg .A) s

/-- The error that stops an instruction, if one does: a failed operand check (60_exceptions.md R122), or the ES byte in
`ExtendedPrefix` (30_encoding.md R74). -/
def stopOf (i : Instr) (prefixed : Bool) : Option (Addr → Fault) :=
  match i with
  | .esPrefix => if prefixed then some (Fault.unknownOpcode prefixOpcode · true) else none
  | .movA_saddr saddr | .movX_saddr saddr | .movB_saddr saddr | .movC_saddr saddr | .movSaddr_A saddr =>
    if saddrInRange saddr then none else some (.saddrOutOfRange saddr)
  | .movA_sfr sfr | .movSfr_A sfr => if sfrMapped sfr then none else some (.unmappedSfr sfr)
  | _ => none

/-! ### What exec does, as updates -/

/-- An instruction stops with the error `stopOf` gives, or moves the pc past its encoding and makes its updates. -/
theorem exec_eq (i : Instr) (s : State) :
    exec i s = (stopOf i s.prefixActive).elim
      (.next ((s.consume (encode i).length).commit (updatesOf i s))) (raise · s) := by
  cases i
  case esPrefix =>
    simp only [exec_esPrefix, enterPrefix, stopOf]
    split <;> rfl
  case movA_saddr saddr | movX_saddr saddr | movB_saddr saddr | movC_saddr saddr | movSaddr_A saddr =>
    simp only [exec_movA_saddr, exec_movX_saddr, exec_movB_saddr, exec_movC_saddr, exec_movSaddr_A, loadShort,
      storeShort, stopOf]
    split <;> rfl
  case movA_sfr sfr =>
    cases h : sfrMapped sfr
    · simp [stopOf, loadSfr_unmapped, h, raise]
    · obtain rfl | rfl | rfl := sfrMapped_iff.mp h <;> rfl
  case movSfr_A sfr =>
    cases h : sfrMapped sfr
    · simp [stopOf, storeSfr_unmapped, h, raise]
    · obtain rfl | rfl | rfl := sfrMapped_iff.mp h <;> rfl
  all_goals rfl

/-- Everything an instruction that completes can do. -/
theorem exec_next_iff {i : Instr} {s t : State} :
    exec i s = .next t ↔
      stopOf i s.prefixActive = none ∧ t = (s.consume (encode i).length).commit (updatesOf i s) := by
  rw [exec_eq]
  cases stopOf i s.prefixActive with
  | none => simp [eq_comm]
  | some kind => simp

end Sys2Proof.Machine
end

section
/-! SUPPORT. What a commit keeps, which updates an instruction may make, and the frames that follow. -/

namespace Sys2Proof.Machine

/-! ### What a commit keeps -/

/-- What holds of a state and is kept by each update holds after the commit. -/
theorem State.commit_induction {P : State → Prop} {us : List Update} {s : State} (h0 : P s)
    (hstep : ∀ u ∈ us, ∀ r, P r → P (u.apply r)) : P (s.commit us) :=
  List.foldlRecOn us _ h0 fun r hr u hu => hstep u hu r hr

/-- A commit keeps whatever each of its updates keeps. -/
theorem State.commit_keeps {α : Type} (view : State → α) {us : List Update} (s : State)
    (h : ∀ u ∈ us, ∀ r, view (u.apply r) = view r) : view (s.commit us) = view s :=
  State.commit_induction (P := fun r => view r = view s) rfl fun u hu r hr => (h u hu r).trans hr

/-- A commit commutes with a change of state that each of its updates commutes with. -/
theorem State.commit_map {f : State → State} {us : List Update}
    (h : ∀ u ∈ us, ∀ r, u.apply (f r) = f (u.apply r)) (s : State) : (f s).commit us = f (s.commit us) := by
  induction us generalizing s with
  | nil => rfl
  | cons u us ih =>
    have hu := h u (by simp) s
    have ih' := ih (fun x hx => h x (by simp [hx])) (u.apply s)
    simpa [State.commit, hu] using ih'

/-- A commit keeps the canonical form of the memory. -/
theorem State.commit_wf {us : List Update} {s : State} (h : s.mem.wf) : (s.commit us).mem.wf := by
  refine State.commit_induction (P := fun r => r.mem.wf) h fun u hu r hr => ?_
  cases u
  case mem a v => exact State.memWrite_wf a v hr
  all_goals exact hr

/-! ### Which updates an instruction may make -/

/-- Where the spec lists an update for the instruction: the columns of 10_state.md R23, and R28, R31 and R32 for the PSW,
ES and CS. -/
def Update.Listed (i : Instr) (s : State) : Update → Prop
  | .reg r _ => r ∈ writesOf i
  | .mem a _ => storeTarget i s = some a
  | .psw _ => i = .movSfr_A 0xFA
  | .flags _ _ => isAdd i
  | .cs _ => i = .movSfr_A 0xFC
  | .es _ => i = .movSfr_A 0xFD
  | .pc _ => i = .brAX
  | .extended => i = .esPrefix

theorem sfrUpdates_listed (sfr v : Byte) (s : State) : ∀ u ∈ sfrUpdates sfr v, u.Listed (.movSfr_A sfr) s := by
  unfold sfrUpdates
  split_ifs <;> simp_all [Update.Listed]

/-- No instruction makes an update that the spec does not list for it. -/
theorem updatesOf_listed (i : Instr) (s : State) : ∀ u ∈ updatesOf i s, u.Listed i s := by
  cases i
  case movSfr_A sfr => exact sfrUpdates_listed sfr _ s
  all_goals simp [updatesOf, pairUpdates, addUpdates, Update.Listed, writesOf, storeTarget, isAdd, Pair.lo, Pair.hi]

/-- A store's only update is that of the byte its mode resolves. -/
theorem updatesOf_store {i : Instr} {s : State} {a : Addr} (h : storeTarget i s = some a) :
    updatesOf i s = [.mem a (s.getReg .A)] := by
  cases i
  case movSaddr_A | movAbs_A | movAtDE_A | movAtHL_A | movAtDEdisp_A | movAtHLdisp_A =>
    obtain rfl := Option.some.inj h
    rfl
  all_goals cases h

/-- What the updates are read from: the general registers, the memory, the register an SFR read names, and the resolved
address of a banked operand. -/
theorem updatesOf_congr {i : Instr} {s r : State} (hreg : ∀ q, r.getReg q = s.getReg q)
    (hmem : ∀ a, r.memRead a = s.memRead a) (hsfr : ∀ c, i = .movA_sfr c → sfrRead c r = sfrRead c s)
    (hres : consultsPrefix i → ∀ m a, resolve m a r = resolve m a s) : updatesOf i r = updatesOf i s := by
  have hpair : ∀ p, r.getPair p = s.getPair p := fun p => by simp [State.getPair, hreg]
  cases i
  case movA_sfr c => simp [updatesOf, hsfr c rfl]
  case movA_abs | movX_abs | movB_abs | movC_abs | movAbs_A | movA_atDE | movA_atHL | movAtDE_A | movAtHL_A |
      movA_atDEdisp | movA_atHLdisp | movAtDEdisp_A | movAtHLdisp_A =>
    have hres := hres (by simp [consultsPrefix])
    simp [updatesOf, displaced, hreg, hmem, hpair, hres]
  all_goals simp [updatesOf, addUpdates, hreg, hmem, hpair]

/-! ### Frames -/

/-- A completed instruction keeps whatever its fetch and each update listed for it keep. -/
theorem exec_keeps {α : Type} (view : State → α) {i : Instr} {s t : State} (h : exec i s = .next t)
    (hfetch : ∀ n, view (s.consume n) = view s)
    (hupdate : ∀ u : Update, u.Listed i s → ∀ r, view (u.apply r) = view r) : view t = view s := by
  obtain ⟨-, rfl⟩ := exec_next_iff.mp h
  rw [State.commit_keeps view _ fun u hu => hupdate u (updatesOf_listed i s u hu), hfetch]

/-- An instruction that neither reads nor writes what `f` changes completes as well after `f`, and `f` shows in the state
it leaves. -/
theorem exec_map {f : State → State} {i : Instr} {s t : State} (h : exec i s = .next t)
    (hstop : (f s).prefixActive = s.prefixActive) (hread : updatesOf i (f s) = updatesOf i s)
    (hfetch : ∀ n, (f s).consume n = f (s.consume n))
    (hupdate : ∀ u : Update, u.Listed i s → ∀ r, u.apply (f r) = f (u.apply r)) : exec i (f s) = .next (f t) := by
  obtain ⟨hnone, rfl⟩ := exec_next_iff.mp h
  refine exec_next_iff.mpr ⟨hstop ▸ hnone, ?_⟩
  rw [hread, hfetch, State.commit_map fun u hu => hupdate u (updatesOf_listed i s u hu)]

/-! ### Fetching after a change of PSW, CS or ES -/

theorem State.consume_setPsw (s : State) (v : Byte) (n : Nat) : (s.setPsw v).consume n = (s.consume n).setPsw v := by
  simp only [State.consume_eq, State.setPsw]

theorem State.consume_setCs (s : State) (v : Byte) (n : Nat) : (s.setCs v).consume n = (s.consume n).setCs v := by
  simp only [State.consume_eq, State.setCs]

theorem State.consume_setEs (s : State) (v : Byte) (n : Nat) : (s.setEs v).consume n = (s.consume n).setEs v := by
  simp only [State.consume_eq, State.setEs]

/-! ### What an SFR read sees of the other two registers -/

theorem sfrRead_setPsw {c : Byte} (hc : c ≠ 0xFA) (s : State) (v : Byte) : sfrRead c (s.setPsw v) = sfrRead c s := by
  simp only [sfrRead, if_neg hc, State.setPsw_cs, State.setPsw_es]

theorem sfrRead_setCs {c : Byte} (hc : c ≠ 0xFC) (s : State) (v : Byte) : sfrRead c (s.setCs v) = sfrRead c s := by
  simp only [sfrRead, if_neg hc, State.setCs_psw, State.setCs_es]

theorem sfrRead_setEs {c : Byte} (hc : c ≠ 0xFD) (s : State) (v : Byte) : sfrRead c (s.setEs v) = sfrRead c s := by
  simp only [sfrRead, if_neg hc, State.setEs_psw, State.setEs_cs]

/-! ### The PSW -/

/-- Two states that differ in the PSW alone differ in it alone after the same commit. -/
theorem State.commit_setPsw (us : List Update) (s : State) (v : Byte) :
    ∃ w, (s.setPsw v).commit us = (s.commit us).setPsw w := by
  induction us generalizing s v with
  | nil => exact ⟨v, rfl⟩
  | cons u us ih =>
    have hu : ∃ w, u.apply (s.setPsw v) = (u.apply s).setPsw w := by
      cases u
      case psw x => exact ⟨x, rfl⟩
      case flags a b => exact ⟨addPsw v a b, rfl⟩
      all_goals exact ⟨v, rfl⟩
    obtain ⟨w, hw⟩ := hu
    simpa [State.commit, hw] using ih (u.apply s) w

/-- The bits other than CY, AC and Z: 43_arith.md R105. -/
theorem addPsw_getLsbD_of_notMem (psw a b : Byte) {k : Nat} (hk : k ∉ [0, 4, 6]) :
    (addPsw psw a b).getLsbD k = psw.getLsbD k := by
  simp only [List.mem_cons, List.not_mem_nil, or_false, not_or] at hk
  obtain ⟨hcy, hac, hz⟩ := hk
  simp [addPsw, setBit_getLsbD, cyBit, acBit, zBit, hcy, hac, hz]

end Sys2Proof.Machine
end

section
/-! SUPPORT. The statements about the Machine State: 10_state.md. -/

namespace Sys2Proof.Machine

/-- Settles O11: a cycle commits updates, each of which keeps the canonical form, and then clears the flag of the ES byte. -/
theorem stepKeepsTheInvariant : Obligations.StepKeepsTheInvariant := by
  intro s t hinv hstep
  obtain ⟨i, n, u, -, hexec, rfl⟩ := step_next_iff.mp hstep
  obtain ⟨-, rfl⟩ := exec_next_iff.mp hexec
  have hwf : (s.atOpcode.consume (encode i).length).mem.wf := by simpa using hinv.2
  exact ⟨rfl, State.commit_wf hwf⟩

/-- Settles O49: only BR AX has an update of the pc, and the fetch moves it past the encoding. -/
theorem pcAdvancesByTheEncodedLength : Obligations.PcAdvancesByTheEncodedLength := by
  intro i s t h
  obtain ⟨-, rfl⟩ := exec_next_iff.mp h
  split
  case isTrue hbr =>
    subst hbr
    have hpc : ((s.consume (encode .brAX).length).commit (updatesOf .brAX s)).pc = (s.getPair .AX).setWidth 20 := rfl
    rw [hpc, BitVec.toNat_setWidth_of_le (by decide)]
  case isFalse hbr =>
    have hkeep : ∀ u ∈ updatesOf i s, ∀ r, (u.apply r).pc = r.pc := by
      intro u hu r
      have hlisted := updatesOf_listed i s u hu
      cases u
      case pc target => exact absurd hlisted hbr
      all_goals rfl
    rw [State.commit_keeps State.pc _ hkeep, State.consume_pc, BitVec.toNat_add, BitVec.toNat_ofNat, Nat.add_mod_mod]

/-- Settles O50: every register update is of a register the table lists. -/
theorem registersChangeOnlyWhereListed : Obligations.RegistersChangeOnlyWhereListed := by
  intro i s t h q hq
  refine exec_keeps (State.getReg · q) h (by simp) fun u hu r => ?_
  cases u
  case reg p v =>
    have hqp : q ≠ p := fun heq => hq (heq ▸ hu)
    simp [Update.apply, hqp]
  all_goals rfl

/-- Settles O51: an instruction without a target lists no update of memory, and a store lists its own one. -/
theorem onlyStoresChangeMemory : Obligations.OnlyStoresChangeMemory := by
  intro i s t h
  refine ⟨fun hnone b => ?_, fun a hsome => ?_⟩
  · refine exec_keeps (State.memRead · b) h (by simp) fun u hu r => ?_
    cases u
    case mem a v => simp [Update.Listed, hnone] at hu
    all_goals rfl
  · obtain ⟨-, rfl⟩ := exec_next_iff.mp h
    rw [updatesOf_store hsome]
    refine ⟨?_, fun b hb => ?_⟩
    · simp [State.commit, Update.apply]
    · simp [State.commit, Update.apply, hb]

/-- Settles O52: the updates of the PSW are the ADD family's and that of MOV sfr,A with code 0xFA. -/
theorem pswChangesOnlyByAddOrSfrWrite : Obligations.PswChangesOnlyByAddOrSfrWrite := by
  intro i s t h hsfr
  refine ⟨fun hadd => ?_, fun k hk => ?_⟩
  · refine exec_keeps State.psw h (by simp) fun u hu r => ?_
    cases u
    case psw v => exact absurd hu hsfr
    case flags a b => exact absurd hu hadd
    all_goals rfl
  · refine exec_keeps (State.psw · |>.getLsbD k) h (by simp) fun u hu r => ?_
    cases u
    case psw v => exact absurd hu hsfr
    case flags a b => exact addPsw_getLsbD_of_notMem r.psw a b hk
    all_goals rfl

/-- Settles O53: without MOV A,sfr of code 0xFA the updates do not depend on the PSW, nor does the error. -/
theorem flagsDecideNothing : Obligations.FlagsDecideNothing := by
  intro i s v hi
  have hsfr : ∀ c, i = .movA_sfr c → sfrRead c (s.setPsw v) = sfrRead c s := by
    rintro c rfl
    exact sfrRead_setPsw (fun heq => hi (heq ▸ rfl)) s v
  have hread : updatesOf i (s.setPsw v) = updatesOf i s :=
    updatesOf_congr (fun _ => rfl) (fun _ => rfl) hsfr fun _ _ _ => rfl
  simp only [exec_eq, hread, State.setPsw_prefixActive, State.consume_setPsw]
  cases stopOf i s.prefixActive with
  | none =>
    obtain ⟨w, hw⟩ := State.commit_setPsw (updatesOf i s) (s.consume (encode i).length) v
    exact ⟨w, congrArg _ hw⟩
  | some kind => rfl

/-- Settles O54: no update reads or writes SP. -/
theorem stackPointerIsNeverUsed : Obligations.StackPointerIsNeverUsed := by
  intro i s t v h
  refine ⟨exec_keeps State.sp h (by simp) fun u _ r => by cases u <;> rfl, ?_⟩
  refine exec_map (f := fun r => { r with sp := v }) h rfl ?_ ?_ fun u _ r => by cases u <;> rfl
  · exact updatesOf_congr (fun _ => rfl) (fun _ => rfl) (fun _ _ => rfl) fun _ _ _ => rfl
  · simp [State.consume_eq]

/-- Settles O55: the one update of CS is that of MOV sfr,A with code 0xFC, and the one that reads it is that of
MOV A,sfr with the same code. -/
theorem csIsOnlyStored : Obligations.CsIsOnlyStored := by
  intro i s t v h
  refine ⟨fun hw => exec_keeps State.cs h (by simp) fun u hu r => ?_, fun hr hw => ?_⟩
  · cases u
    case cs x => exact absurd hu hw
    all_goals rfl
  · have hsfr : ∀ c, i = .movA_sfr c → sfrRead c (s.setCs v) = sfrRead c s := by
      rintro c rfl
      exact sfrRead_setCs (fun heq => hr (heq ▸ rfl)) s v
    have hread : updatesOf i (s.setCs v) = updatesOf i s :=
      updatesOf_congr (fun _ => rfl) (fun _ => rfl) hsfr fun _ _ _ => rfl
    refine exec_map (f := (State.setCs · v)) h rfl hread (State.consume_setCs s v) fun u hu r => ?_
    cases u
    case cs x => exact absurd hu hw
    all_goals rfl

/-- Settles O56: as for CS, with address resolution, which reads ES under the ES byte only. -/
theorem esMattersOnlyUnderThePrefix : Obligations.EsMattersOnlyUnderThePrefix := by
  intro i s t v h
  refine ⟨fun hw => exec_keeps State.es h (by simp) fun u hu r => ?_, fun hr hw hbank => ?_⟩
  · cases u
    case es x => exact absurd hu hw
    all_goals rfl
  · have hsfr : ∀ c, i = .movA_sfr c → sfrRead c (s.setEs v) = sfrRead c s := by
      rintro c rfl
      exact sfrRead_setEs (fun heq => hr (heq ▸ rfl)) s v
    have hres : consultsPrefix i → ∀ m a, resolve m a (s.setEs v) = resolve m a s := by
      intro hmode m a
      simp [resolve, hbank hmode]
    have hread : updatesOf i (s.setEs v) = updatesOf i s :=
      updatesOf_congr (fun _ => rfl) (fun _ => rfl) hsfr hres
    refine exec_map (f := (State.setEs · v)) h rfl hread (State.consume_setEs s v) fun u hu r => ?_
    cases u
    case es x => exact absurd hu hw
    all_goals rfl

/-- Settles O12: reset leaves the empty memory, which is canonical. -/
theorem resetMeetsTheInvariant : Obligations.ResetMeetsTheInvariant :=
  fun params => ⟨rfl, State.resetWith_mem_wf params⟩

/-- Settles O13: each value is the one `State.resetWith` writes. -/
theorem resetLeavesTheDefaults : Obligations.ResetLeavesTheDefaults :=
  fun _ => ⟨rfl, rfl, rfl, rfl, fun _ => rfl, rfl, fun _ => rfl, rfl⟩

/-- Settles O35: the pair is `wordOf` of its bytes, read and written through the laws of `getReg` and `setPair`. -/
theorem pairsAndBytesShareStorage : Obligations.PairsAndBytesShareStorage := by
  intro s p v w
  have hne := Pair.hi_ne_lo p p
  refine ⟨wordOf_toNat _ _, by cases p <;> rfl, by cases p <;> rfl, ?_, ?_, ?_, ?_⟩
  · simp [State.getPair]
  · simp [State.getPair]
  · rw [State.setPair_getReg, if_neg hne.symm, if_pos rfl]
    exact BitVec.eq_of_toNat_eq (by simp [lowByte_toNat])
  · rw [State.setPair_getReg, if_pos rfl]
    have hlt := w.isLt
    exact BitVec.eq_of_toNat_eq (by simp [highByte_toNat]; omega)

end Sys2Proof.Machine
end

section
/-! SUPPORT. Addresses as numbers (20_memory.md R42 to R45), what the fetch unit sees of a store, and which errors a cycle
can raise. -/

namespace Sys2Proof.Machine

/-! ### Addresses as numbers -/

/-- The bank is the low four bits of ES: the OR meets disjoint bits, and the mask drops the high four. -/
theorem segmented_toNat (es : Byte) (a16 : Word) : (segmented es a16).toNat = es.toNat % 16 * 0x10000 + a16.toNat := by
  have hes := es.isLt
  have ha := a16.isLt
  have hor : es.toNat <<< 16 ||| a16.toNat = es.toNat * 2 ^ 16 + a16.toNat := by
    rw [← Nat.shiftLeft_add_eq_or_of_lt ha, Nat.shiftLeft_eq]
  have hbank : es.toNat <<< 16 < 2 ^ 24 := by
    rw [Nat.shiftLeft_eq]
    omega
  simp only [segmented, BitVec.toNat_setWidth, BitVec.toNat_or, BitVec.toNat_shiftLeft]
  rw [Nat.mod_eq_of_lt (by omega : es.toNat < 2 ^ 24), Nat.mod_eq_of_lt (by omega : a16.toNat < 2 ^ 24),
    Nat.mod_eq_of_lt hbank, hor]
  omega

/-- Bank 15 lies above every bit of a logical address. -/
theorem bank15_toNat (a16 : Word) : (a16.setWidth 20 ||| 0xF0000 : Addr).toNat = 0xF0000 + a16.toNat := by
  have ha := a16.isLt
  have hor : (0xF <<< 16 ||| a16.toNat) = 0xF <<< 16 + a16.toNat := (Nat.shiftLeft_add_eq_or_of_lt ha 0xF).symm
  rw [BitVec.toNat_or, BitVec.toNat_setWidth_of_le (by decide), Nat.or_comm]
  exact hor

theorem resolve_of_extended {s : State} (h : s.prefixActive = true) (mode : AddrMode) (a16 : Word) :
    resolve mode a16 s = segmented s.es a16 := if_pos h

theorem resolve_absolute_of_normal {s : State} (h : s.prefixActive = false) (a16 : Word) :
    resolve .absolute a16 s = a16.setWidth 20 := by
  simp [resolve, h]

theorem resolve_indirect_of_normal {s : State} (h : s.prefixActive = false) (a16 : Word) :
    resolve .indirect a16 s = a16.setWidth 20 ||| 0xF0000 := by
  simp [resolve, h]

theorem displaced_toNat (p : Pair) (disp : Byte) (s : State) :
    (displaced p disp s).toNat = ((s.getPair p).toNat + disp.toNat) % 2 ^ 16 := by
  rw [displaced, BitVec.toNat_add, BitVec.toNat_setWidth_of_le (by decide)]

/-- The sum stays below 2^20 for every operand, so it does not wrap. -/
theorem saddrAddr_toNat (saddr : Byte) : (saddrAddr saddr).toNat = 0xFE20 + saddr.toNat := by
  have hlt := saddr.isLt
  rw [saddrAddr, BitVec.toNat_add, BitVec.toNat_setWidth_of_le (by decide)]
  exact Nat.mod_eq_of_lt (by simp; omega)

/-! ### The fetch unit and memory -/

/-- The fetch unit reads the same memory as a data access: 20_memory.md R57. -/
@[simp] theorem State.memWrite_peek (s : State) (a : Addr) (v : Byte) (k : Nat) :
    (s.memWrite a v).peek k = if s.pc + BitVec.ofNat 20 k = a then v else s.peek k := by
  simp [State.peek]

/-- Without the ES byte at the pc, the first opcode byte is the cycle's first byte. -/
theorem State.atOpcode_of_unprefixed {s : State} (h : s.prefixActive = false) (hb : s.peek 0 ≠ prefixOpcode) :
    s.atOpcode = s := by
  rw [State.atOpcode, State.toNormal_of_normal h, if_neg hb]

/-- A cycle without the ES byte that commits has run the instruction decoded at the pc. -/
theorem exec_of_step_unprefixed {s t : State} {i : Instr} {n : Nat} (h : s.prefixActive = false)
    (hb : s.peek 0 ≠ prefixOpcode) (hdec : decodeAt s = .ok (i, n)) (hstep : step s = .next t) :
    ∃ u, exec i s = .next u ∧ t = u.toNormal := by
  obtain ⟨j, m, u, hdec', hexec, ht⟩ := step_next_iff.mp hstep
  rw [State.atOpcode_of_unprefixed h hb] at hdec' hexec
  obtain ⟨rfl, rfl⟩ : i = j ∧ n = m := by simpa [hdec] using hdec'
  exact ⟨u, hexec, ht⟩

/-! ### Which errors a cycle can raise -/

/-- Everything an instruction that stops can have met. -/
theorem exec_fault_iff {i : Instr} {s : State} {f : Fault} :
    exec i s = .fault f ↔ ∃ kind, stopOf i s.prefixActive = some kind ∧ f = kind s.cycleStart := by
  rw [exec_eq]
  cases stopOf i s.prefixActive with
  | none => simp
  | some kind => simp [raise_eq_fault]

/-- The errors that stop an instruction are of kinds that record the pc they are given. -/
theorem stopOf_pc {i : Instr} {prefixed : Bool} {kind : Addr → Fault} (h : stopOf i prefixed = some kind) (pc : Addr) :
    (kind pc).pc? = some pc := by
  cases i
  case esPrefix =>
    obtain ⟨-, ⟨⟩⟩ := Option.ite_none_right_eq_some.mp h
    rfl
  case movA_saddr | movX_saddr | movB_saddr | movC_saddr | movSaddr_A | movA_sfr | movSfr_A =>
    obtain ⟨-, ⟨⟩⟩ := Option.ite_none_left_eq_some.mp h
    rfl
  all_goals cases h

/-- The decoder's errors are of kinds that record the pc: 60_exceptions.md R116, R117. -/
theorem raiseUndecoded_pc {why : Undecoded} {s : State} {f : Fault} (h : raiseUndecoded why s = .fault f) :
    f.pc? = some s.cycleStart := by
  cases why <;> cases h <;> rfl

/-- Every error a cycle raises, by its decoder or by its instruction, records the pc at the cycle's start:
60_exceptions.md R115. -/
theorem step_fault_pc {s : State} {f : Fault} (h : step s = .fault f) : f.pc? = some s.pc := by
  rw [← State.atOpcode_cycleStart s]
  obtain ⟨why, -, hraise⟩ | ⟨i, n, -, hexec⟩ := step_fault_iff.mp h
  · exact raiseUndecoded_pc hraise
  · obtain ⟨kind, hstop, rfl⟩ := exec_fault_iff.mp hexec
    exact stopOf_pc hstop s.atOpcode.cycleStart

end Sys2Proof.Machine
end

section
/-! SUPPORT. The statements about memory and addresses: 20_memory.md. -/

namespace Sys2Proof.Machine

/-- Settles O15: an error a cycle raises records the cycle's pc, and OutOfBounds records none. -/
theorem noAccessIsOutOfBounds : Obligations.NoAccessIsOutOfBounds := by
  intro s a h
  have hpc : (Fault.outOfBounds a).pc? = some s.pc := step_fault_pc h
  cases hpc

/-- Settles O45: both modes take the bank from ES after the ES byte, and each its own bank without it. -/
theorem resolveForThePhysicalAddress : Obligations.ResolveForThePhysicalAddress := by
  intro a16 s
  cases h : s.prefixActive with
  | true => simp [resolve_of_extended h, segmented_toNat]
  | false =>
    rw [resolve_absolute_of_normal h, resolve_indirect_of_normal h]
    exact ⟨BitVec.toNat_setWidth_of_le (by decide), bank15_toNat a16⟩

/-- Settles O57: the cycle ran the store, whose byte the return to `Normal` keeps, and a peek reads memory. -/
theorem storeIsSeenByTheNextFetch : Obligations.StoreIsSeenByTheNextFetch := by
  intro s t i n k a hnormal hbyte hdec htarget hstep haddr
  obtain ⟨u, hexec, rfl⟩ := exec_of_step_unprefixed hnormal hbyte hdec hstep
  obtain ⟨hstored, -⟩ := (onlyStoresChangeMemory i s u hexec).2 a htarget
  rw [State.peek, haddr, State.toNormal_memRead, hstored]

/-- Settles O19: each of the five is a short-address load or store, whose operand check fails from 0xE0 on. -/
theorem shortAddressOutOfRangeIsAnError : Obligations.ShortAddressOutOfRangeIsAnError := by
  intro mov hmov saddr s hge
  have hrange : saddrInRange saddr = false := by
    rw [← Bool.not_eq_true, saddrInRange_iff]
    omega
  simp only [List.mem_cons, List.not_mem_nil, or_false] at hmov
  obtain rfl | rfl | rfl | rfl | rfl := hmov
  case inr.inr.inr.inr => exact storeShort_outOfRange hrange
  all_goals exact loadShort_outOfRange hrange

/-- Settles O46: a displaced address is a 16-bit sum, and a short address one that does not reach 2^20. -/
theorem displacedAndShortAddresses : Obligations.DisplacedAndShortAddresses := by
  refine ⟨displaced_toNat, fun saddr hle => ⟨saddrAddr_toNat saddr, ?_⟩⟩
  rw [saddrAddr_toNat]
  omega

/-- Settles O47: the laws of a read and of a peek after a write, at the address written and at another. -/
theorem writtenByteIsReadBack : Obligations.WrittenByteIsReadBack := by
  intro s a b v k
  refine ⟨?_, fun hb => ?_, fun hk => ?_, fun hk => ?_⟩
  · rw [State.memWrite_memRead, if_pos rfl]
  · rw [State.memWrite_memRead, if_neg hb]
  · rw [State.memWrite_peek, if_pos hk]
  · rw [State.memWrite_peek, if_neg hk]

end Sys2Proof.Machine
end

section
/-! SUPPORT. The decoder as a relation (30_encoding.md R70 to R74): what it accepts, that it accepts exactly the
admitted bytes, and what it refuses. Each row of the opcode maps is tied to the encoder once. -/

namespace Sys2Proof.Laws

open Sys2Proof.Machine

/-! ### The rows of the opcode maps -/

/-- The encoder writes the opcode byte `b0`, and after it the operand bytes of the row: 30_encoding.md R61, R65, R76. -/
def RowEncodes (b0 : Byte) : Operands → Prop
  | .bare i => encode i = [b0]
  | .byte build => ∀ v, encode (build v) = [b0, v]
  | .word build => ∀ w, encode (build w) = [b0, lowByte w, highByte w]

/-- Each row of the first map stands at the byte that the encoder writes: 30_encoding.md R79. -/
theorem firstMap_rowEncodes : ∀ entry ∈ firstMap, RowEncodes entry.1 entry.2 := by
  simp only [firstMap, firstMapLow, firstMapImmediate, firstMapRegister, firstMapMemory, firstMapHigh,
    List.forall_mem_append, List.forall_mem_cons, List.not_mem_nil, false_implies, implies_true, and_true, RowEncodes]
  and_intros <;> intros <;> rfl

/-- The instruction a row assembles is encoded as the bytes it is assembled from, as many as the row takes. -/
theorem RowEncodes.encode_assemble {b0 : Byte} {row : Operands} (h : RowEncodes b0 row) (b1 b2 : Byte) :
    encode (row.assemble b1 b2) = [b0, b1, b2].take row.length := by
  cases row
  case bare i => exact h
  case byte build => exact h b1
  case word build => simpa [Operands.assemble, Operands.length] using h (wordOf b1 b2)

/-- Each row of the second map lists the byte that the encoder writes after the escape: 30_encoding.md R80. -/
theorem secondMap_encode : ∀ entry ∈ secondMap, encode entry.2 = [escapeOpcode, entry.1] := by decide

theorem mem_of_lookup_eq_some {α : Type} {rows : List (Byte × α)} {b : Byte} {row : α}
    (h : rows.lookup b = some row) : (b, row) ∈ rows := by
  obtain ⟨before, after, rfl, -⟩ := List.lookup_eq_some_iff.mp h
  simp

/-- The first map lists exactly the bytes of the spec's grid, and the ES byte. -/
theorem firstMap_lookup_isSome (b : Byte) : (firstMap.lookup b).isSome ↔ admittedFirst b ∨ b = prefixOpcode := by
  unfold admittedFirst
  revert b
  decide +kernel

/-- The second map lists exactly the bytes of the spec's grid. -/
theorem secondMap_lookup_isSome (b : Byte) : (secondMap.lookup b).isSome ↔ admittedSecond b := by
  unfold admittedSecond
  revert b
  decide +kernel

theorem not_admittedFirst_prefixOpcode : ¬ admittedFirst prefixOpcode := by
  unfold admittedFirst
  decide

/-! ### What the decoder accepts -/

/-- Everything the decoder accepts: a row of the first map, the ES byte's in `Normal` only, or a row of the second. -/
theorem decodeWindow_ok_iff {p : Bool} {b0 b1 b2 : Byte} {i : Instr} {n : Nat} :
    decodeWindow p b0 b1 b2 = .ok (i, n) ↔
      (∃ row, firstMap.lookup b0 = some row ∧ (p = false ∨ b0 ≠ prefixOpcode) ∧ i = row.assemble b1 b2 ∧
        n = row.length) ∨
      (b0 = escapeOpcode ∧ secondMap.lookup b1 = some i ∧ n = 2) := by
  constructor
  · intro h
    unfold decodeWindow at h
    split at h
    case isTrue => cases h
    case isFalse hpre =>
      have hp : p = false ∨ b0 ≠ prefixOpcode := by simpa [or_iff_not_imp_left] using hpre
      split at h
      case isTrue hesc =>
        split at h
        case h_1 j hrow =>
          cases h
          exact .inr ⟨hesc, hrow, rfl⟩
        case h_2 => cases h
      case isFalse =>
        split at h
        case h_1 row hrow =>
          cases h
          exact .inl ⟨row, hrow, hp, rfl, rfl⟩
        case h_2 => cases h
  · rintro (⟨row, hrow, hp, rfl, rfl⟩ | ⟨rfl, hrow, rfl⟩)
    · exact decodeWindow_first b1 b2 hrow hp
    · exact decodeWindow_second b2 hrow

theorem operands_length_le_three (row : Operands) : row.length ≤ 3 := by
  cases row <;> simp [Operands.length]

/-- The bytes the decoder accepts are the encoding of its answer, as long as it says: 30_encoding.md R70. -/
theorem encode_of_decodeWindow {p : Bool} {b0 b1 b2 : Byte} {i : Instr} {n : Nat}
    (h : decodeWindow p b0 b1 b2 = .ok (i, n)) : encode i = [b0, b1, b2].take n ∧ n ≤ 3 := by
  obtain ⟨row, hrow, -, rfl, rfl⟩ | ⟨rfl, hrow, rfl⟩ := decodeWindow_ok_iff.mp h
  · exact ⟨(firstMap_rowEncodes _ (mem_of_lookup_eq_some hrow)).encode_assemble b1 b2, operands_length_le_three row⟩
  · exact ⟨secondMap_encode _ (mem_of_lookup_eq_some hrow), by decide⟩

theorem length_encode_of_decodeWindow {p : Bool} {b0 b1 b2 : Byte} {i : Instr} {n : Nat}
    (h : decodeWindow p b0 b1 b2 = .ok (i, n)) : n = (encode i).length := by
  obtain ⟨henc, hn⟩ := encode_of_decodeWindow h
  simp [henc, hn]

/-- The ES byte is no answer in `ExtendedPrefix`: 30_encoding.md R74. -/
theorem ne_esPrefix_of_decodeWindow {b0 b1 b2 : Byte} {i : Instr} {n : Nat}
    (h : decodeWindow true b0 b1 b2 = .ok (i, n)) : i ≠ .esPrefix := by
  rintro rfl
  obtain rfl : n = 1 := length_encode_of_decodeWindow h
  obtain rfl : 0x11 = b0 := List.head_eq_of_cons_eq (encode_of_decodeWindow h).1
  simp [decodeWindow, prefixOpcode] at h

/-- Decoding reads an instruction back from its encoding, by the format of its row: 30_encoding.md R60 to R62. -/
theorem decode_encode {p : Bool} {i : Instr} (h : p = true → i ≠ .esPrefix) (rest : List Byte) :
    decode p (encode i ++ rest) = .ok (i, rest) := by
  cases i
  case esPrefix => exact decode_bare rfl (.inl (by simpa using h)) rest
  case addX_A | addA_A | addC_A | addB_A | addE_A | addD_A | addL_A | addH_A | addA_X | addA_C | addA_B | addA_E |
      addA_D | addA_L | addA_H | xchA_C | xchA_B | xchA_E | xchA_D | xchA_L | xchA_H | brAX =>
    exact decode_second rfl rest
  case addA_byte v | movX_byte v | movA_byte v | movC_byte v | movB_byte v | movE_byte v | movD_byte v | movL_byte v |
      movH_byte v | movA_atDEdisp v | movA_atHLdisp v | movAtDEdisp_A v | movAtHLdisp_A v | movA_saddr v |
      movX_saddr v | movB_saddr v | movC_saddr v | movSaddr_A v | movA_sfr v | movSfr_A v =>
    exact decode_byte rfl (.inr (by decide)) v rest
  case movwAX_word w | movwBC_word w | movwDE_word w | movwHL_word w | movA_abs w | movX_abs w | movB_abs w |
      movC_abs w | movAbs_A w =>
    exact decode_word rfl (.inr (by decide)) w rest
  all_goals exact decode_bare rfl (.inr (by decide)) rest

/-- What decoding a list accepts, the decoder accepts of its first three bytes. -/
theorem decodeWindow_of_decode {p : Bool} {bytes rest : List Byte} {i : Instr} (h : decode p bytes = .ok (i, rest)) :
    ∃ n, decodeWindow p (bytes.getD 0 0) (bytes.getD 1 0) (bytes.getD 2 0) = .ok (i, n) ∧ n ≤ bytes.length ∧
      rest = bytes.drop n := by
  unfold decode at h
  split at h
  case h_1 => cases h
  case h_2 j n hwindow =>
    split at h
    case isTrue hlen =>
      cases h
      exact ⟨n, hwindow, hlen, rfl⟩
    case isFalse => cases h

/-- As far as the list reaches, the decoder's window is the list's first bytes. -/
theorem take_window {bytes : List Byte} {n : Nat} (hn : n ≤ 3) (hlen : n ≤ bytes.length) :
    [bytes.getD 0 0, bytes.getD 1 0, bytes.getD 2 0].take n = bytes.take n := by
  have hwindow : [bytes.getD 0 0, bytes.getD 1 0, bytes.getD 2 0] = (bytes ++ [0, 0, 0]).take 3 := by
    rcases bytes with _ | ⟨b0, _ | ⟨b1, _ | ⟨b2, tail⟩⟩⟩ <;> rfl
  rw [hwindow, List.take_take, min_eq_left hn, List.take_append_of_le_length hlen]

/-! ### What the decoder refuses -/

/-- 30_encoding.md R72, R74: an unadmitted first byte, or a second ES byte. -/
theorem decodeWindow_unknownOpcode {p : Bool} {b0 : Byte} (b1 b2 : Byte) (hadm : ¬ admittedFirst b0)
    (hp : p = true ∨ b0 ≠ prefixOpcode) (hesc : b0 ≠ escapeOpcode) :
    decodeWindow p b0 b1 b2 = .error (.unknownOpcode b0) := by
  by_cases hpre : b0 = prefixOpcode
  · obtain rfl : p = true := hp.resolve_right (not_not_intro hpre)
    exact if_pos ⟨rfl, hpre⟩
  · have hrow : firstMap.lookup b0 = none := by
      rw [← Option.not_isSome_iff_eq_none, firstMap_lookup_isSome]
      exact not_or_intro hadm hpre
    simp [decodeWindow, hpre, hesc, hrow]

/-- 30_encoding.md R73: an unadmitted byte after the escape. -/
theorem decodeWindow_unknownSecondaryOpcode {p : Bool} {b1 : Byte} (b2 : Byte) (hadm : ¬ admittedSecond b1) :
    decodeWindow p escapeOpcode b1 b2 = .error (.unknownSecondaryOpcode b1) := by
  have hne : escapeOpcode ≠ prefixOpcode := by decide
  have hrow : secondMap.lookup b1 = none := by
    rw [← Option.not_isSome_iff_eq_none, secondMap_lookup_isSome]
    exact hadm
  simp [decodeWindow, hne, hrow]

end Sys2Proof.Laws
end

section
/-! SUPPORT. The cycle from its first byte on (30_encoding.md R63 to R71): what the fetch unit reads and where a cycle
decodes. -/

namespace Sys2Proof.Machine

/-! ### The fetch unit -/

theorem State.fetchByte_eq (s : State) : s.fetchByte = (s.memRead s.pc, s.consume 1) := rfl

theorem State.fetchWord_eq (s : State) :
    s.fetchWord = (wordOf (s.memRead s.pc) (s.memRead (s.pc + 1)), s.consume 2) := rfl

@[simp] theorem State.consume_peek (s : State) (n k : Nat) : (s.consume n).peek k = s.peek (n + k) := by
  simp [State.peek, BitVec.ofNat_add, BitVec.add_assoc]

@[simp] theorem State.toExtended_peek (s : State) (k : Nat) : s.toExtended.peek k = s.peek k := rfl

/-- Fetching reads the bytes that peeking sees, in address order: 30_encoding.md R63, R64. -/
theorem State.fetchBytes_bytes (n : Nat) (s : State) : (State.fetchBytes n s).1 = (List.range n).map s.peek := by
  induction n generalizing s with
  | zero => rfl
  | succ n ih =>
    have hhead : s.memRead s.pc = s.peek 0 := by simp [State.peek]
    have htail : (s.consume 1).peek = s.peek ∘ Nat.succ := funext fun k => by simp [Nat.add_comm]
    simp [State.fetchBytes, State.fetchByte_eq, ih, List.range_succ_eq_map, hhead, htail]

/-- Consuming is part of the frame of every register-only instruction: only the pc moves. -/
theorem State.consume_registerFrame (s : State) (n : Nat) : RegisterFrame [] s (s.consume n) := by
  simp [RegisterFrame, BytesKeptBut, SegmentsKept, MemoryKept]

/-! ### Where a cycle decodes -/

/-- With the ES byte at the pc, the first opcode byte is the one after it: 30_encoding.md R68. -/
theorem State.atOpcode_of_prefixed {s : State} (h : s.prefixActive = false) (hb : s.peek 0 = prefixOpcode) :
    s.atOpcode = (s.consume 1).toExtended := by
  rw [State.atOpcode, State.toNormal_of_normal h, if_pos hb]

/-- A cycle whose bytes decode runs the instruction: 30_encoding.md R71. -/
theorem step_of_decoded {s : State} {i : Instr} {n : Nat} (h : decodeAt s.atOpcode = .ok (i, n)) :
    step s = clearPrefix (exec i s.atOpcode) := by
  rw [step_eq_runDecoded, runDecoded, h]

/-- A cycle whose bytes do not decode raises the decoder's error: 30_encoding.md R72, R73. -/
theorem step_of_undecoded {s : State} {why : Undecoded} (h : decodeAt s.atOpcode = .error why) :
    step s = raiseUndecoded why s.atOpcode := by
  rw [step_eq_runDecoded, runDecoded, h]

/-- A byte in the place of a first opcode byte that is not admitted there is the error of 60_exceptions.md R116. -/
theorem step_unknownOpcode {s : State} (hadm : ¬ admittedFirst (s.atOpcode.peek 0))
    (hp : s.atOpcode.prefixActive = true ∨ s.atOpcode.peek 0 ≠ prefixOpcode) (hesc : s.atOpcode.peek 0 ≠ escapeOpcode) :
    step s = .fault (.unknownOpcode (s.atOpcode.peek 0) s.pc s.atOpcode.prefixActive) := by
  rw [step_of_undecoded (Laws.decodeWindow_unknownOpcode _ _ hadm hp hesc), raiseUndecoded, raise,
    State.atOpcode_cycleStart]

/-- A byte after the escape that is not admitted there is the error of 60_exceptions.md R117. -/
theorem step_unknownSecondaryOpcode {s : State} (hesc : s.atOpcode.peek 0 = escapeOpcode)
    (hadm : ¬ admittedSecond (s.atOpcode.peek 1)) :
    step s = .fault (.unknownSecondaryOpcode escapeOpcode (s.atOpcode.peek 1) s.pc s.atOpcode.prefixActive) := by
  have hdec : decodeAt s.atOpcode = .error (.unknownSecondaryOpcode (s.atOpcode.peek 1)) := by
    rw [decodeAt, hesc, Laws.decodeWindow_unknownSecondaryOpcode _ hadm]
  rw [step_of_undecoded hdec, raiseUndecoded, raise, State.atOpcode_cycleStart]

/-- The decoder's state decides only whether the ES byte itself stops: 30_encoding.md R74, R75. -/
theorem stopOf_eq_of_ne_esPrefix {i : Instr} (h : i ≠ .esPrefix) (p q : Bool) : stopOf i p = stopOf i q := by
  cases i
  case esPrefix => exact absurd rfl h
  all_goals rfl

theorem enterPrefix_of_extended {s : State} (h : s.prefixActive = true) :
    enterPrefix s = .fault (.unknownOpcode prefixOpcode s.cycleStart true) := if_pos h

theorem State.consume_toExtended (s : State) (n : Nat) : s.toExtended.consume n = (s.consume n).toExtended := by
  simp only [State.consume_eq, State.toExtended]

end Sys2Proof.Machine
end

section
/-! SUPPORT. The statements about encoding, decoding and the cycle: 30_encoding.md. -/

namespace Sys2Proof.Machine

/-- Settles O1: each instruction is read back by the format of its row. -/
theorem decodeReadsBackEveryEncoding : Obligations.DecodeReadsBackEveryEncoding :=
  fun _ _ rest h => Laws.decode_encode h rest

/-- Settles O2: the window the decoder accepts is the encoding of its answer, and the list begins with that window. -/
theorem decodeAcceptsOnlyEncodings : Obligations.DecodeAcceptsOnlyEncodings := by
  intro p bytes rest i h
  obtain ⟨n, hwindow, hlen, rfl⟩ := Laws.decodeWindow_of_decode h
  obtain ⟨henc, hn⟩ := Laws.encode_of_decodeWindow hwindow
  refine ⟨?_, ?_⟩
  · rw [henc, Laws.take_window hn hlen, List.take_append_drop]
  · rintro rfl
    exact Laws.ne_esPrefix_of_decodeWindow hwindow

/-- Settles O3: the rows the decoder looks up stand at exactly the admitted bytes. -/
theorem decoderAcceptsExactlyTheAdmittedBytes : Obligations.DecoderAcceptsExactlyTheAdmittedBytes := by
  intro p b0 b1 b2
  have hfirst := Laws.firstMap_lookup_isSome b0
  have hsecond := Laws.secondMap_lookup_isSome b1
  rw [Option.isSome_iff_exists] at hfirst hsecond
  constructor
  · rintro ⟨⟨i, n⟩, h⟩
    obtain ⟨row, hrow, hp, -, -⟩ | ⟨hesc, hrow, -⟩ := Laws.decodeWindow_ok_iff.mp h
    · obtain hadm | hpre := hfirst.mp ⟨row, hrow⟩
      · exact .inl hadm
      · exact .inr (.inl ⟨hpre, hp.resolve_right (not_not_intro hpre)⟩)
    · exact .inr (.inr ⟨hesc, hsecond.mp ⟨i, hrow⟩⟩)
  · rintro (hadm | ⟨hpre, hp⟩ | ⟨rfl, hadm⟩)
    · obtain ⟨row, hrow⟩ := hfirst.mpr (.inl hadm)
      have hpre : b0 ≠ prefixOpcode := fun heq => Laws.not_admittedFirst_prefixOpcode (heq ▸ hadm)
      exact ⟨_, Laws.decodeWindow_first b1 b2 hrow (.inr hpre)⟩
    · obtain ⟨row, hrow⟩ := hfirst.mpr (.inr hpre)
      exact ⟨_, Laws.decodeWindow_first b1 b2 hrow (.inl hp)⟩
    · obtain ⟨i, hrow⟩ := hsecond.mpr hadm
      exact ⟨_, Laws.decodeWindow_second b2 hrow⟩

/-- Settles O7: the decoder's window is what the fetch unit reads, cut to the encoding. -/
theorem fetchConsumesTheEncoding : Obligations.FetchConsumesTheEncoding := by
  intro s i n h
  obtain ⟨henc, hn⟩ := Laws.encode_of_decodeWindow h
  have hwindow : [s.peek 0, s.peek 1, s.peek 2] = (List.range 3).map s.peek := rfl
  refine ⟨Laws.length_encode_of_decodeWindow h, ?_, rfl⟩
  rw [State.fetchBytes_bytes, henc, hwindow, ← List.map_take, List.take_range, min_eq_left hn]

/-- Settles O9: the decoder refuses the byte at the first opcode byte's place, or the one after it, and the cycle raises
its error. -/
theorem unadmittedBytesAreUnknownOpcodes : Obligations.UnadmittedBytesAreUnknownOpcodes := by
  intro s h
  refine ⟨fun hadm hpre hesc => ?_, fun hesc hadm => ?_, fun hpre hadm hesc => ?_, fun hpre hesc hadm => ?_⟩
  · have hat := State.atOpcode_of_unprefixed h hpre
    simpa [hat, h] using step_unknownOpcode (s := s) (by rwa [hat]) (.inr (by rwa [hat])) (by rwa [hat])
  · have hat := State.atOpcode_of_unprefixed h (by rw [hesc]; decide)
    simpa [hat, h, escapeOpcode] using step_unknownSecondaryOpcode (s := s) (by rwa [hat]) (by rwa [hat])
  · have hat := State.atOpcode_of_prefixed h hpre
    simpa [hat] using step_unknownOpcode (s := s) (by simpa [hat]) (.inl (by simp [hat])) (by simpa [hat])
  · have hat := State.atOpcode_of_prefixed h hpre
    simpa [hat, escapeOpcode] using step_unknownSecondaryOpcode (s := s) (by simpa [hat]) (by simpa [hat])

/-- Settles O10: a cycle that commits ends with the return to `Normal`, and an error leaves the first state. -/
theorem everyCycleEndsInNormal : Obligations.EveryCycleEndsInNormal := by
  have hcommit : ∀ s t : State, step s = .next t → t.prefixActive = false := by
    intro s t hstep
    obtain ⟨-, -, u, -, -, rfl⟩ := step_next_iff.mp hstep
    exact State.toNormal_prefixActive u
  refine ⟨hcommit, fun s h => ?_⟩
  unfold singleCycle
  cases hstep : step s with
  | next t => exact hcommit s t hstep
  | fault f => exact h
  | refused r => exact h

/-- Settles O48: without a banked operand the updates do not depend on the decoder's state, and each of them
commutes with `toExtended`. -/
theorem prefixMattersOnlyToMemoryOperands : Obligations.PrefixMattersOnlyToMemoryOperands := by
  intro i s t hbank hi h
  obtain ⟨hnone, rfl⟩ := exec_next_iff.mp h
  have hread : updatesOf i s.toExtended = updatesOf i s :=
    updatesOf_congr (fun _ => rfl) (fun _ => rfl) (fun _ _ => rfl) fun hmode => absurd hmode hbank
  have hcommute : ∀ u ∈ updatesOf i s, ∀ r : State, u.apply r.toExtended = (u.apply r).toExtended := by
    intro u _ r
    cases u <;> rfl
  refine exec_next_iff.mpr ⟨stopOf_eq_of_ne_esPrefix hi _ _ ▸ hnone, ?_⟩
  rw [hread, State.consume_toExtended, State.commit_map hcommute]
  rfl

/-- Settles O4: each word by the format of its opcode's row, or by the byte that has none. -/
theorem sampleWordsDecode : Obligations.SampleWordsDecode :=
  ⟨Laws.decode_encode (i := .movX_byte 0x2A) nofun [], Laws.decode_encode (i := .movAbs_A 0x1234) nofun [],
    Laws.decode_encode (i := .movwHL_word 0x1234) nofun [], Laws.decode_encode (i := .xchA_H) nofun [],
    Laws.decode_encode (i := .addA_byte 0x05) nofun [], Laws.decode_encode (i := .brAX) nofun [], rfl, rfl⟩

/-- Settles O5: without the ES byte the cycle decodes at the pc. -/
theorem stepRunsTheDecodedInstruction : Obligations.StepRunsTheDecodedInstruction := by
  intro s i n h hb hdec
  have hat := State.atOpcode_of_unprefixed h hb
  rw [step_of_decoded (hat ▸ hdec), hat]

/-- Settles O6: the ES byte completes, and the cycle decodes after it. -/
theorem stepRunsThePrefixedInstruction : Obligations.StepRunsThePrefixedInstruction := by
  intro s i n h hb hdec
  have hat := State.atOpcode_of_prefixed h hb
  exact ⟨enterPrefix_of_normal h, by rw [step_of_decoded (hat ▸ hdec), hat]⟩

/-- Settles O8: fetching reads at the pc and consumes what it read. -/
theorem fetchByteAndWordReadAtThePc : Obligations.FetchByteAndWordReadAtThePc := by
  intro s
  rw [State.fetchByte_eq, State.fetchWord_eq]
  exact ⟨rfl, by simp, State.consume_registerFrame s 1, wordOf_toNat _ _, by simp, State.consume_registerFrame s 2⟩

/-- Settles O44: the ES byte completes in `Normal` and is the error of R74 in `ExtendedPrefix`. -/
theorem prefixEntersExtendedPrefix : Obligations.PrefixEntersExtendedPrefix := by
  refine ⟨rfl, fun s => ?_⟩
  split
  case isTrue h =>
    refine ⟨_, enterPrefix_of_normal h, ?_⟩
    simp [AdvancesBy, BytesKeptBut, MemoryKept]
  case isFalse h => exact enterPrefix_of_extended (by simpa using h)

end Sys2Proof.Machine
end

section
/-! SUPPORT. What the two shapes of a move leave behind: after the instruction's bytes, one register write or one byte
stored. -/

namespace Sys2Proof.Machine

/-- An instruction that consumes its bytes and writes one register has the frame of that register: 40_move.md R84 to
R95. -/
theorem loads_of_exec_setReg {i : Instr} {s : State} {n : Nat} {r : Reg} {v : Byte}
    (h : exec i s = .next ((s.consume n).setReg r v)) :
    ∃ t, exec i s = .next t ∧ t.getReg r = v ∧ AdvancesBy n s t ∧ RegisterFrame [r] s t := by
  refine ⟨_, h, by simp, by simp [AdvancesBy], ?_⟩
  have hbytes : BytesKeptBut [r] s ((s.consume n).setReg r v) := fun q hq => by
    simp [List.ne_of_not_mem_cons hq]
  exact ⟨hbytes, by simp, by simp [SegmentsKept], by simp [MemoryKept]⟩

/-- An instruction that consumes its bytes and stores one byte changes that byte alone: 40_move.md R88 to R94. -/
theorem stores_of_exec_memWrite {i : Instr} {s : State} {n : Nat} {a : Addr} {v : Byte}
    (h : exec i s = .next ((s.consume n).memWrite a v)) :
    ∃ t, exec i s = .next t ∧ AdvancesBy n s t ∧ StoresOnly a v s t := by
  refine ⟨_, h, by simp [AdvancesBy], by simp, ?_⟩
  have hmem : MemoryKeptBut a s ((s.consume n).memWrite a v) := fun b hb => by simp [hb]
  exact ⟨hmem, by simp [BytesKeptBut], by simp, by simp [SegmentsKept]⟩

theorem saddrAddr_eq_ofNat (saddr : Byte) : saddrAddr saddr = BitVec.ofNat 20 (0xFE20 + saddr.toNat) := by
  rw [← saddrAddr_toNat, BitVec.ofNat_toNat, BitVec.setWidth_eq]

theorem displaced_eq_ofNat (p : Pair) (disp : Byte) (s : State) :
    displaced p disp s = BitVec.ofNat 16 ((s.getPair p).toNat + disp.toNat) :=
  BitVec.eq_of_toNat_eq (by rw [displaced_toNat, BitVec.toNat_ofNat])

theorem sfrMapped_eq_false_iff {sfr : Byte} :
    sfrMapped sfr = false ↔ ¬ (sfr = 0xFA ∨ sfr = 0xFC ∨ sfr = 0xFD) := by
  rw [← sfrMapped_iff, Bool.not_eq_true]

end Sys2Proof.Machine
end

section
/-! SUPPORT. The statements about the byte moves: 40_move.md R84 to R96. The rows of a statement are one shared
operation at different registers, so its proof names that operation once and checks each row against it. -/

namespace Sys2Proof.Machine

/-- Settles O20: the eight rows are `loadImmediate`. -/
theorem movImmediateLoadsTheRegister : Obligations.MovImmediateLoadsTheRegister := by
  intro r op mov hrow imm
  obtain ⟨hencode, hexec⟩ : encode (mov imm) = [op, imm] ∧ exec (mov imm) = loadImmediate r imm := by
    fin_cases hrow <;> exact ⟨rfl, rfl⟩
  exact ⟨hencode, fun s => loads_of_exec_setReg (congrFun hexec s)⟩

/-- Settles O21: the fourteen rows are `copyByte`. -/
theorem movCopiesBetweenAAndTheRegister : Obligations.MovCopiesBetweenAAndTheRegister := by
  intro dst src op mov hrow
  obtain ⟨hencode, hexec⟩ : encode mov = [op] ∧ exec mov = copyByte dst src := by
    fin_cases hrow <;> exact ⟨rfl, rfl⟩
  exact ⟨hencode, fun s => loads_of_exec_setReg (congrFun hexec s)⟩

/-- Settles O22: the four rows are `loadShort`, which completes on the operand's domain. -/
theorem movFromShortAddressLoadsTheWindow : Obligations.MovFromShortAddressLoadsTheWindow := by
  intro r op mov hrow saddr
  obtain ⟨hencode, hexec⟩ : encode (mov saddr) = [op, saddr] ∧ exec (mov saddr) = loadShort r saddr := by
    fin_cases hrow <;> exact ⟨rfl, rfl⟩
  refine ⟨hencode, fun s hle => ?_⟩
  rw [← saddrAddr_eq_ofNat]
  exact loads_of_exec_setReg ((congrFun hexec s).trans (loadShort_next_iff.mpr ⟨saddrInRange_iff.mpr hle, rfl⟩))

/-- Settles O23: the store completes on the operand's domain. -/
theorem movToShortAddressStoresInTheWindow : Obligations.MovToShortAddressStoresInTheWindow := by
  refine fun saddr => ⟨rfl, fun s hle => ?_⟩
  obtain ⟨t, hexec, hpc, hstore⟩ :=
    stores_of_exec_memWrite (i := .movSaddr_A saddr) (storeShort_next_iff.mpr ⟨saddrInRange_iff.mpr hle, rfl⟩)
  exact ⟨t, hexec, hpc, saddrAddr_eq_ofNat saddr, hstore⟩

/-- Settles O24: the four rows are `loadAbsolute`. -/
theorem movFromAbsoluteLoadsTheByte : Obligations.MovFromAbsoluteLoadsTheByte := by
  intro r op mov hrow addr
  obtain ⟨hencode, hexec⟩ : encode (mov addr) = [op, lowByte addr, highByte addr] ∧
      exec (mov addr) = loadAbsolute r addr := by
    fin_cases hrow <;> exact ⟨rfl, rfl⟩
  exact ⟨hencode, fun s => loads_of_exec_setReg (congrFun hexec s)⟩

/-- Settles O25: the one row is `storeAbsolute`. -/
theorem movToAbsoluteStoresTheByte : Obligations.MovToAbsoluteStoresTheByte :=
  fun addr => ⟨rfl, fun s => stores_of_exec_memWrite (exec_movAbs_A addr s)⟩

/-- Settles O26: both rows are `loadIndirect`. -/
theorem movFromIndirectLoadsTheByte : Obligations.MovFromIndirectLoadsTheByte := by
  intro p op mov hrow
  obtain ⟨hencode, hexec⟩ : encode mov = [op] ∧ exec mov = loadIndirect p := by
    fin_cases hrow <;> exact ⟨rfl, rfl⟩
  exact ⟨hencode, fun s => loads_of_exec_setReg (congrFun hexec s)⟩

/-- Settles O27: both rows are `storeIndirect`. -/
theorem movToIndirectStoresTheByte : Obligations.MovToIndirectStoresTheByte := by
  intro p op mov hrow
  obtain ⟨hencode, hexec⟩ : encode mov = [op] ∧ exec mov = storeIndirect p := by
    fin_cases hrow <;> exact ⟨rfl, rfl⟩
  exact ⟨hencode, fun s => stores_of_exec_memWrite (congrFun hexec s)⟩

/-- Settles O28: both rows are `loadDisplaced`, whose logical address is the 16-bit sum. -/
theorem movFromDisplacedLoadsTheByte : Obligations.MovFromDisplacedLoadsTheByte := by
  intro p op mov hrow disp
  obtain ⟨hencode, hexec⟩ : encode (mov disp) = [op, disp] ∧ exec (mov disp) = loadDisplaced p disp := by
    fin_cases hrow <;> exact ⟨rfl, rfl⟩
  refine ⟨hencode, fun s => ?_⟩
  rw [← displaced_eq_ofNat]
  exact loads_of_exec_setReg (congrFun hexec s)

/-- Settles O29: both rows are `storeDisplaced`, whose logical address is the 16-bit sum. -/
theorem movToDisplacedStoresTheByte : Obligations.MovToDisplacedStoresTheByte := by
  intro p op mov hrow disp
  obtain ⟨hencode, hexec⟩ : encode (mov disp) = [op, disp] ∧ exec (mov disp) = storeDisplaced p disp := by
    fin_cases hrow <;> exact ⟨rfl, rfl⟩
  exact ⟨hencode, fun s => ⟨displaced_eq_ofNat p disp s, stores_of_exec_memWrite (congrFun hexec s)⟩⟩

/-- Settles O30: each mapped code reads its register, and no other code is mapped. -/
theorem movFromSfrReadsTheRegister : Obligations.MovFromSfrReadsTheRegister := by
  refine fun sfr => ⟨rfl, fun s => ?_⟩
  split
  case isTrue h => obtain rfl | rfl | rfl := h <;> exact loads_of_exec_setReg rfl
  case isFalse h => exact loadSfr_unmapped (sfrMapped_eq_false_iff.mpr h)

/-- Settles O31: each mapped code writes its register, and no other code is mapped. -/
theorem movToSfrWritesTheRegister : Obligations.MovToSfrWritesTheRegister := by
  refine fun sfr => ⟨rfl, fun s => ?_⟩
  split
  case isTrue h =>
    obtain rfl | rfl | rfl := h <;> exact ⟨_, rfl, by simp [BytesKeptBut, MemoryKept, AdvancesBy]⟩
  case isFalse h => exact storeSfr_unmapped (sfrMapped_eq_false_iff.mpr h)

end Sys2Proof.Machine
end

section
/-! SUPPORT. The statements about register pairs: 41_pair.md R97 to R101. Each family is one shared operation, and all of
them leave one pair write behind. -/

namespace Sys2Proof.Machine

/-- An instruction that consumes its bytes and writes one pair has the frame of the pair's two bytes: 41_pair.md R97 to
R101. -/
theorem loads_of_exec_setPair {i : Instr} {s : State} {n : Nat} {p : Pair} {v : Word}
    (h : exec i s = .next ((s.consume n).setPair p v)) :
    ∃ t, exec i s = .next t ∧ t.getPair p = v ∧ t.getReg p.lo = lowByte v ∧ t.getReg p.hi = highByte v ∧
      AdvancesBy n s t ∧ RegisterFrame [p.hi, p.lo] s t := by
  refine ⟨_, h, by simp, by simp [(Pair.hi_ne_lo p p).symm], by simp, by simp [AdvancesBy], ?_⟩
  have hbytes : BytesKeptBut [p.hi, p.lo] s ((s.consume n).setPair p v) := fun q hq => by
    obtain ⟨hhi, hlo⟩ : q ≠ p.hi ∧ q ≠ p.lo := by simpa using hq
    simp [hhi, hlo]
  exact ⟨hbytes, by simp, by simp [SegmentsKept], by simp [MemoryKept]⟩

/-- Settles O32: the four rows are `loadWord`. -/
theorem movwImmediateLoadsThePair : Obligations.MovwImmediateLoadsThePair := by
  intro p op mov hrow imm
  obtain ⟨hencode, hexec⟩ : encode (mov imm) = [op, lowByte imm, highByte imm] ∧ exec (mov imm) = loadWord p imm := by
    fin_cases hrow <;> exact ⟨rfl, rfl⟩
  exact ⟨hencode, fun s => loads_of_exec_setPair (congrFun hexec s)⟩

/-- Settles O33: the six rows are `copyPair`. -/
theorem movwCopiesBetweenAXAndThePair : Obligations.MovwCopiesBetweenAXAndThePair := by
  intro dst src op mov hrow
  obtain ⟨hencode, hexec⟩ : encode mov = [op] ∧ exec mov = copyPair dst src := by
    fin_cases hrow <;> exact ⟨rfl, rfl⟩
  refine ⟨hencode, fun s => ?_⟩
  obtain ⟨t, hnext, hpair, -, -, hpc, hframe⟩ := loads_of_exec_setPair (congrFun hexec s)
  exact ⟨t, hnext, hpair, hpc, hframe⟩

/-- Settles O34: the four rows are `setPairTo`, at a value whose bytes are read off. -/
theorem clrwAndOnewSetThePair : Obligations.ClrwAndOnewSetThePair := by
  intro p v op set hrow
  obtain ⟨hencode, hexec, hlow, hhigh⟩ : encode set = [op] ∧ exec set = setPairTo p v ∧
      lowByte v = BitVec.ofNat 8 v.toNat ∧ highByte v = 0x00 := by
    fin_cases hrow <;> exact ⟨rfl, rfl, rfl, rfl⟩
  rw [← hlow, ← hhigh]
  exact ⟨hencode, fun s => loads_of_exec_setPair (congrFun hexec s)⟩

end Sys2Proof.Machine
end

section
/-! SUPPORT. The statements about exchange: 42_exchange.md R102 to R104. An exchange consumes its bytes and makes two
writes, so its frame is the composition of theirs. Both values are read before either write, so the two writes agree when
an operand is exchanged with itself, and no lemma asks that the operands differ. -/

namespace Sys2Proof.Machine

/-! ### Frames of changes made in turn -/

/-- Two changes in turn keep what both of them keep. -/
theorem RegisterFrame.trans {rs qs : List Reg} {s t u : State} (hfirst : RegisterFrame rs s t)
    (hsecond : RegisterFrame qs t u) : RegisterFrame (rs ++ qs) s u := by
  obtain ⟨hregs, hpsw, ⟨hsp, hes, hcs, hprefix⟩, hmem⟩ := hfirst
  obtain ⟨hregs', hpsw', ⟨hsp', hes', hcs', hprefix'⟩, hmem'⟩ := hsecond
  have hbytes : BytesKeptBut (rs ++ qs) s u := fun q hq => by
    obtain ⟨hrs, hqs⟩ : q ∉ rs ∧ q ∉ qs := by simpa using hq
    exact (hregs' q hqs).trans (hregs q hrs)
  exact ⟨hbytes, hpsw'.trans hpsw, ⟨hsp'.trans hsp, hes'.trans hes, hcs'.trans hcs, hprefix'.trans hprefix⟩,
    fun a => (hmem' a).trans (hmem a)⟩

theorem State.setReg_registerFrame (s : State) (r : Reg) (v : Byte) : RegisterFrame [r] s (s.setReg r v) := by
  have hbytes : BytesKeptBut [r] s (s.setReg r v) := fun q hq => by simp [List.ne_of_not_mem_cons hq]
  exact ⟨hbytes, by simp, by simp [SegmentsKept], by simp [MemoryKept]⟩

theorem State.setPair_registerFrame (s : State) (p : Pair) (v : Word) :
    RegisterFrame [p.hi, p.lo] s (s.setPair p v) := by
  obtain ⟨hbytes, hrest⟩ := (s.setReg_registerFrame p.lo (lowByte v)).trans
    (State.setReg_registerFrame _ p.hi (highByte v))
  exact ⟨fun q hq => hbytes q (by simpa [and_comm] using hq), hrest⟩

/-! ### The two exchange operations -/

/-- What an exchange of A with a byte register leaves behind: 42_exchange.md R102, R103. -/
theorem exchangeBytes_swaps (r : Reg) (n : Nat) (s : State) :
    ∃ t, exchangeBytes r n s = .next t ∧
      t.getReg .A = s.getReg r ∧ t.getReg r = s.getReg .A ∧ AdvancesBy n s t ∧ RegisterFrame [.A, r] s t := by
  have hframe := ((s.consume_registerFrame n).trans (State.setReg_registerFrame _ .A (s.getReg r))).trans
    (State.setReg_registerFrame _ r (s.getReg .A))
  refine ⟨_, rfl, ?_, by simp, by simp [AdvancesBy], hframe⟩
  by_cases h : r = .A
  · simp [h]
  · simp [Ne.symm h]

/-- What an exchange of AX with a pair leaves behind: 42_exchange.md R104. -/
theorem exchangePairs_swaps (p : Pair) (s : State) :
    ∃ t, exchangePairs p s = .next t ∧
      t.getPair .AX = s.getPair p ∧ t.getPair p = s.getPair .AX ∧ AdvancesBy 1 s t ∧
      RegisterFrame [.A, .X, p.hi, p.lo] s t := by
  have hframe := ((s.consume_registerFrame 1).trans (State.setPair_registerFrame _ .AX (s.getPair p))).trans
    (State.setPair_registerFrame _ p (s.getPair .AX))
  refine ⟨_, rfl, ?_, by simp, by simp [AdvancesBy], hframe⟩
  by_cases h : p = .AX
  · simp [h]
  · simp [Ne.symm h]

/-! ### The statements -/

/-- Settles O36: the seven rows are `exchangeBytes`, at the length of each row's encoding. -/
theorem xchSwapsAWithTheRegister : Obligations.XchSwapsAWithTheRegister := by
  intro r opcode xch hrow
  obtain ⟨hencode, hexec⟩ : encode xch = opcode ∧ exec xch = exchangeBytes r opcode.length := by
    fin_cases hrow <;> exact ⟨rfl, rfl⟩
  rw [hexec]
  exact ⟨hencode, exchangeBytes_swaps r opcode.length⟩

/-- Settles O37: the three rows are `exchangePairs`. -/
theorem xchwSwapsAXWithThePair : Obligations.XchwSwapsAXWithThePair := by
  intro p op xch hrow
  obtain ⟨hencode, hexec⟩ : encode xch = [op] ∧ exec xch = exchangePairs p := by
    fin_cases hrow <;> exact ⟨rfl, rfl⟩
  rw [hexec]
  exact ⟨hencode, exchangePairs_swaps p⟩

end Sys2Proof.Machine
end

section
/-! SUPPORT. The statements about the ADD family: 43_arith.md R105 to R108. Every row is `addInto`, whose PSW is `addPsw`,
so the flags are read off that one function. -/

namespace Sys2Proof.Machine

/-! ### The sum and its flags -/

theorem addResult_toNat (a b : Byte) : (addResult a b).toNat = (a.toNat + b.toNat) % 2 ^ 8 :=
  BitVec.toNat_ofNat _ 8

theorem addResult_eq_zero_iff (a b : Byte) : addResult a b = 0 ↔ (a.toNat + b.toNat) % 256 = 0 := by
  rw [← BitVec.toNat_inj, addResult_toNat]
  rfl

/-- The PSW after an addition, bit by bit: Z, AC and CY are bits 6, 4 and 0, and any other is the old one. -/
theorem addPsw_getLsbD (psw a b : Byte) (k : Nat) :
    (addPsw psw a b).getLsbD k =
      if k = 6 then decide ((a.toNat + b.toNat) % 256 = 0)
      else if k = 4 then decide (a.toNat % 16 + b.toNat % 16 > 0xF)
      else if k = 0 then decide (a.toNat + b.toNat > 0xFF)
      else psw.getLsbD k := by
  have hz : decide (addResult a b = 0) = decide ((a.toNat + b.toNat) % 256 = 0) :=
    decide_eq_decide.mpr (addResult_eq_zero_iff a b)
  unfold addPsw sum9 cyBit acBit zBit
  rw [hz, lowNibble_toNat, lowNibble_toNat]
  simp only [setBit_getLsbD, Nat.reduceLT]

/-- The flag rules ask of the state after the addition only its PSW: 43_arith.md R105. -/
theorem flagsOfAdd_of_psw {a b : Byte} {s t : State} (h : t.psw = addPsw s.psw a b) : FlagsOfAdd a b s t := by
  unfold FlagsOfAdd PswBitsKeptBut
  rw [h]
  exact ⟨addPsw_getLsbD _ a b 0, addPsw_getLsbD _ a b 4, addPsw_getLsbD _ a b 6,
    fun _ hk => addPsw_getLsbD_of_notMem _ a b hk⟩

/-! ### The ADD operation -/

/-- What an ADD leaves behind, whatever its destination and source: 43_arith.md R106 to R108. -/
theorem addInto_adds (dst : Reg) (b : Byte) (n : Nat) (s : State) :
    ∃ t, addInto dst b n s = .next t ∧ AddsInto dst b s t ∧ AdvancesBy n s t := by
  refine ⟨_, rfl, ⟨?_, flagsOfAdd_of_psw ?_, ?_, ?_, ?_⟩, ?_⟩
  · simp [addFlags, addResult_toNat]
  · simp [addFlags]
  · intro q hq
    simp [addFlags, List.ne_of_not_mem_cons hq]
  · simp [addFlags, SegmentsKept]
  · simp [addFlags, MemoryKept]
  · simp [addFlags, AdvancesBy]

/-! ### The statements -/

/-- Settles O38: the flags are those of `addPsw`, and only the PSW is written. -/
theorem addFlagsFollowsTheSum : Obligations.AddFlagsFollowsTheSum := fun a b _ =>
  ⟨addResult_toNat a b, flagsOfAdd_of_psw rfl, rfl, fun _ _ => rfl, ⟨rfl, rfl, rfl, rfl⟩, fun _ => rfl⟩

/-- Settles O39: the one row is `addInto` A. -/
theorem addImmediateAddsToA : Obligations.AddImmediateAddsToA :=
  fun imm => ⟨rfl, addInto_adds .A imm 2⟩

/-- Settles O40: the seven rows are `addBytes` into A. -/
theorem addRegisterAddsToA : Obligations.AddRegisterAddsToA := by
  intro r op add hrow
  obtain ⟨hencode, hexec⟩ : encode add = [0x61, op] ∧ exec add = addBytes .A r := by
    fin_cases hrow <;> exact ⟨rfl, rfl⟩
  rw [hexec]
  exact ⟨hencode, fun s => addInto_adds .A (s.getReg r) 2 s⟩

/-- Settles O41: the eight rows are `addBytes` from A. Both operands are read before the write, so A itself needs no case
of its own. -/
theorem addAccumulatorAddsToTheRegister : Obligations.AddAccumulatorAddsToTheRegister := by
  intro r op add hrow
  obtain ⟨hencode, hexec⟩ : encode add = [0x61, op] ∧ exec add = addBytes r .A := by
    fin_cases hrow <;> exact ⟨rfl, rfl⟩
  rw [hexec]
  exact ⟨hencode, fun s => addInto_adds r (s.getReg .A) 2 s⟩

end Sys2Proof.Machine
end

section
/-! SUPPORT. The statements about control: 44_control.md R110, R111. Neither instruction does more than move the pc, so
each frame is that of consuming the bytes, followed for BR AX by that of the jump. -/

namespace Sys2Proof.Machine

/-- A jump is part of the frame of a register-only instruction: only the pc moves. -/
theorem State.jump_registerFrame (s : State) (target : Addr) : RegisterFrame [] s (s.jump target) := by
  simp [RegisterFrame, BytesKeptBut, SegmentsKept, MemoryKept]

/-- Settles O42: the jump replaces the pc the fetch left, and zero extension keeps the value of AX. -/
theorem branchSetsThePcToAX : Obligations.BranchSetsThePcToAX := by
  refine ⟨rfl, fun s => ⟨_, exec_brAX s, ?_, ?_⟩⟩
  · rw [State.jump_pc, BitVec.toNat_setWidth_of_le (by decide)]
  · exact (s.consume_registerFrame 2).trans (State.jump_registerFrame _ _)

/-- Settles O43: NOP is the fetch of its one byte. -/
theorem nopOnlyAdvancesThePc : Obligations.NopOnlyAdvancesThePc :=
  ⟨rfl, fun s => ⟨_, exec_nop s, s.consume_pc 1, s.consume_registerFrame 1⟩⟩

end Sys2Proof.Machine
end

section
/-! SUPPORT. How a cycle ends and what a pre-load leaves: 60_exceptions.md R114, R122 and R132. -/

namespace Sys2Proof.Machine

/-! ### How an instruction and a cycle end -/

/-- Nothing stops an instruction exactly when its operand passes the checks of 60_exceptions.md R122. -/
theorem stopOf_eq_none_iff {i : Instr} {prefixed : Bool} (h : i = .esPrefix → prefixed = false) :
    stopOf i prefixed = none ↔ i.wellFormed = true := by
  cases i
  case esPrefix => simp [stopOf, Instr.wellFormed, h rfl]
  case movA_saddr | movX_saddr | movB_saddr | movC_saddr | movSaddr_A | movA_sfr | movSfr_A =>
    simp [stopOf, Instr.wellFormed]
  all_goals exact iff_of_true rfl rfl

/-- Every instruction completes or raises an error: 60_exceptions.md R114. -/
theorem exec_next_or_fault (i : Instr) (s : State) : (∃ t, exec i s = .next t) ∨ ∃ f, exec i s = .fault f := by
  cases h : stopOf i s.prefixActive with
  | none => exact .inl ⟨_, exec_next_iff.mpr ⟨h, rfl⟩⟩
  | some kind => exact .inr ⟨_, exec_fault_iff.mpr ⟨kind, h, rfl⟩⟩

/-- Every cycle commits or raises an error, of its decoder or of its instruction: 60_exceptions.md R114. -/
theorem step_next_or_fault (s : State) : (∃ t, step s = .next t) ∨ ∃ f, step s = .fault f := by
  cases hdec : decodeAt s.atOpcode with
  | error why =>
    rw [step_of_undecoded hdec]
    cases why <;> exact .inr ⟨_, rfl⟩
  | ok x =>
    obtain ⟨i, n⟩ := x
    obtain ⟨u, hexec⟩ | ⟨f, hexec⟩ := exec_next_or_fault i s.atOpcode
    · exact .inl ⟨_, step_next_iff.mpr ⟨i, n, u, hdec, hexec, rfl⟩⟩
    · exact .inr ⟨f, step_fault_iff.mpr (.inr ⟨i, n, hdec, hexec⟩)⟩

/-! ### What the host sees of a cycle -/

theorem singleCycle_of_next {s t : State} (h : step s = .next t) : singleCycle s = (.ok, t) := by
  rw [singleCycle, h]

theorem singleCycle_of_fault {s : State} {f : Fault} (h : step s = .fault f) : singleCycle s = (.err f, s) := by
  rw [singleCycle, h]

/-! ### What a pre-load writes -/

/-- A later byte of the list lies at a higher address, so none is written over. -/
theorem preloadBytes_read (m : Memory) (offset : Nat) (bytes : List Byte) (a : Nat) :
    (preloadBytes m offset bytes).read a =
      if offset ≤ a ∧ a < offset + bytes.length then bytes.getD (a - offset) 0 else m.read a := by
  induction bytes generalizing m offset with
  | nil =>
    have hout : ¬(offset ≤ a ∧ a < offset + 0) := by omega
    rw [preloadBytes, List.length_nil, if_neg hout]
  | cons b rest ih =>
    rw [preloadBytes, ih, Memory.read_write, List.length_cons]
    rcases lt_trichotomy a offset with hlt | rfl | hgt
    · have hhead : ¬(offset ≤ a ∧ a < offset + (rest.length + 1)) := by omega
      have htail : ¬(offset + 1 ≤ a ∧ a < offset + 1 + rest.length) := by omega
      rw [if_neg hhead, if_neg htail, if_neg hlt.ne]
    · simp
    · have hsub : a - offset = a - (offset + 1) + 1 := by omega
      have hrange : (offset ≤ a ∧ a < offset + (rest.length + 1)) ↔
          (offset + 1 ≤ a ∧ a < offset + 1 + rest.length) := by omega
      rw [if_neg hgt.ne', hsub, List.getD_cons_succ, if_congr hrange rfl rfl]

theorem preloadBytes_wf {m : Memory} {offset : Nat} {bytes : List Byte} (hend : offset + bytes.length ≤ memSize)
    (h : m.wf) : (preloadBytes m offset bytes).wf := by
  induction bytes generalizing m offset with
  | nil => exact h
  | cons b rest ih =>
    rw [List.length_cons] at hend
    exact ih (by omega) (Memory.wf_write b (by omega) h)

end Sys2Proof.Machine
end

section
/-! SUPPORT. The statements about errors and the host interface: 60_exceptions.md. -/

namespace Sys2Proof.Machine

/-- Settles O14: a cycle that ends in a next state or in an error is not refused. -/
theorem stepNeverRefuses : Obligations.StepNeverRefuses := by
  intro s r hrefused
  obtain ⟨t, h⟩ | ⟨f, h⟩ := step_next_or_fault s
  · exact nomatch h.symm.trans hrefused
  · exact nomatch h.symm.trans hrefused

/-- Settles O16: the decoder and the operand checks record `cycleStart`, which at the first opcode byte is the cycle's pc. -/
theorem errorsNameTheCycleStart : Obligations.ErrorsNameTheCycleStart :=
  fun _ _ _ h => step_fault_pc h

/-- Settles O18: an instruction completes exactly when `stopOf` gives it no error, that is, when it is well-formed. -/
theorem execCompletesExactlyOnCheckedOperands : Obligations.ExecCompletesExactlyOnCheckedOperands := by
  intro i s hprefix
  rw [← stopOf_eq_none_iff hprefix]
  simp [exec_next_iff]

/-- Settles O58: the guard is the bound of D20, and under it only the memory is written, by `preloadBytes`. -/
theorem preloadWritesExactlyItsRange : Obligations.PreloadWritesExactlyItsRange := by
  intro offset bytes s
  split
  case isTrue hend =>
    exact ⟨_, if_pos hend, rfl, fun _ _ => rfl, rfl, ⟨rfl, rfl, rfl, rfl⟩, preloadBytes_wf hend,
      fun a => preloadBytes_read s.mem offset bytes a.toNat⟩
  case isFalse hend => exact if_neg hend

/-- Settles O17: the report follows how the cycle ends. -/
theorem singleCycleCommitsOrRollsBack : Obligations.SingleCycleCommitsOrRollsBack := by
  intro s
  obtain ⟨t, h⟩ | ⟨f, h⟩ := step_next_or_fault s
  · exact .inl ⟨t, h, singleCycle_of_next h⟩
  · exact .inr ⟨f, h, singleCycle_of_fault h⟩

/-- Settles O59: each item is the state's own field, and the pairs are listed in the order of their indices. -/
theorem introspectionShowsTheRegisters : Obligations.IntrospectionShowsTheRegisters :=
  fun _ => ⟨rfl, rfl, rfl, rfl, rfl, fun _ => rfl, fun p => by cases p <;> rfl⟩

end Sys2Proof.Machine
end
